-- ==== Sys2Proof/Word.lean ====
section
/-! DEFINITION. The word types of the block and of the host adapter's text (spec/00_scope.md R8, R11). -/

namespace Sys2Proof

/-- The type `u64` of R11: the input word, `ADDR_WIDTH` = 64 bits (R8). -/
abbrev U64 := BitVec 64

/-- The type `u9` of R11: one index field. -/
abbrev U9 := BitVec 9

/-- The type `u12` of R11: the page offset. -/
abbrev U12 := BitVec 12

/-- One byte of host text (R74: the grammar is "over bytes"). -/
abbrev Byte := BitVec 8

/-- A byte string: an argument, an output stream (R13, R71). -/
abbrev Text := List Byte

/-- The bytes of an ASCII spelling that a rule writes out. -/
def ascii (cs : List Char) : Text := cs.map fun c => BitVec.ofNat 8 c.toNat

end Sys2Proof
end

