-- ==== Sys2Proof/Syntax.lean ====
section
/-! DEFINITION. The instructions: one constructor per row of spec/opcode_table.json, and the fields of the one format VA64. -/

namespace Sys2Proof

/-- The block's one operation (R43, R69). -/
inductive Instr where
  /-- DECOMPOSE, format VA64: its one operand is the whole input word `va : u64` (R55). -/
  | decompose (va : U64)
deriving DecidableEq, Repr

/-- The six fields of format VA64, most significant first (R44). -/
structure VA64 where
  ign : BitVec 16
  pgd : U9
  pud : U9
  pmd : U9
  ptd : U9
  data : U12
deriving DecidableEq, Repr

end Sys2Proof
end

