-- ==== Sys2Proof/Config.lean ====
section
/-! DEFINITION. What is fixed for the machine: the wired paging layout (spec/00_scope.md section 4), and the parameters and
values the spec leaves open (spec/93_implementation_defined.md), as constants with no body. -/

namespace Sys2Proof

/-- The four index levels (R9, R14). -/
inductive Level where
  | ptd
  | pmd
  | pud
  | pgd
deriving DecidableEq, Repr

/-- A PagingLayout: the parameters of the "parameterized bit-field extractor" (R4, R9). Levels stand from least to most
significant, each with its width. -/
structure PagingLayout where
  addrWidth : Nat
  offsetWidth : Nat
  levels : List (Level × Nat)
deriving DecidableEq, Repr

/-- `CONSUMED = OFFSET_WIDTH + LEVELS*LEVEL_WIDTH` (R10), for any layout. -/
def PagingLayout.consumed (l : PagingLayout) : Nat :=
  l.offsetWidth + (l.levels.map Prod.snd).sum

/-- The field widths in extraction order: the page offset, then the levels from least to most significant (R9). -/
def PagingLayout.widths (l : PagingLayout) : List Nat :=
  l.offsetWidth :: l.levels.map Prod.snd

/-- The one layout the block has, wired and immutable (R9, R24). -/
def Config.layout : PagingLayout :=
  { addrWidth := 64, offsetWidth := 12, levels := [(.ptd, 9), (.pmd, 9), (.pud, 9), (.pgd, 9)] }

/-- Page size in bytes (parameter table of spec/00_scope.md section 4). -/
def Config.pageSize : Nat := 4096

/-- Entries per table level (parameter table of spec/00_scope.md section 4). -/
def Config.entriesPerTable : Nat := 512

/-- `T_SETTLE`, an OPEN parameter: "a duration of at least 0" (R107, D11, U9). Its unit is the model's (log entry 4). -/
opaque Config.tSettle : Nat

/-- `PARSE_ERROR_EXIT` less one: an OPEN parameter (D15, U3). -/
opaque Config.parseErrorExitLessOne : Nat

/-- `PARSE_ERROR_EXIT`, "constrained only by `PARSE_ERROR_EXIT != 0`" (R90, D15): any positive number (log entry 6). -/
def Config.parseErrorExit : Nat := Config.parseErrorExitLessOne + 1

/-- What the 48 output bits show where the spec says "any value" (U8, U10): the n-th such showing (log entry 3). -/
opaque Config.openPortBits : Nat → BitVec 48

/-- The part of the ParseError diagnostic before the bad input's text: unspecified (U4; log entry 7). -/
opaque Config.diagnosticLead : Text → Text

/-- The part of the ParseError diagnostic after the bad input's text: unspecified (U4; log entry 7). -/
opaque Config.diagnosticTail : Text → Text

end Sys2Proof
end

