-- ==== Sys2Proof/WellFormed.lean ====
section
/-! DEFINITION. What is admitted: every DECOMPOSE word, and only the one paging layout. -/

namespace Sys2Proof

/-- Every DECOMPOSE operand is legal: "No encoding is illegal, reserved, a hint or undefined" (R49, R18). -/
def Instr.wellFormed : Instr → Bool
  | .decompose _ => true

/-- A layout is admitted only if it is the wired one; "Any other layout is refused" (R9, R6, R50). -/
def PagingLayout.wellFormed (l : PagingLayout) : Bool :=
  decide (l = Config.layout)

end Sys2Proof
end

