-- ==== Sys2Proof/Decode.lean ====
section
/-! DEFINITION. Decoding and encoding: the input word (spec/30_encoding.md), the fields of format VA64, and the textual form of
one DECOMPOSE (R52, R74, R75). The decoder reads WORDS: the block has no bytes and no byte order (R33, D4). -/

namespace Sys2Proof

/-- Why a sequence of words is no instruction. -/
inductive DecodeError where
  /-- There is no word: the input word is always exactly 64 bits (R51). -/
  | noWord
  /-- More than one word: batch forms are excluded (R54, R6). -/
  | batch
  /-- The word matches no row of the opcode table. No word raises it, since the one row has mask 0 (R43). -/
  | noOperation
deriving DecidableEq, Repr

/-- The `mask` of DECOMPOSE's row (R43). -/
def decomposeMask : U64 := 0x0000000000000000#64

/-- The `match` of DECOMPOSE's row (R43). -/
def decomposeMatch : U64 := 0x0000000000000000#64

/-- The decoder, total on any sequence of words: one word selects DECOMPOSE with that word as its operand (R43). -/
def decode : List U64 → Except DecodeError Instr
  | [] => .error .noWord
  | [w] => if w &&& decomposeMask = decomposeMatch then .ok (.decompose w) else .error .noOperation
  | _ :: _ :: _ => .error .batch

/-- The words of an instruction: one 64-bit word (R44, R51). -/
def encode : Instr → List U64
  | .decompose va => [va]

/-- The instruction's word from a table row's bits: `nbits` of them, every bit above them 0. -/
def tableWord (nbits w : Nat) : U64 := BitVec.ofNat 64 (w % 2 ^ nbits)

/-- The instruction the decoder reads from a row's bits, numbered as spec/opcode_table.json numbers them; none where the bits do
not fit a 64-bit word (R51) or the decoder refuses. -/
def decodeTableWord (nbits w : Nat) : Option Instr :=
  if nbits ≤ 64 ∧ w < 2 ^ nbits then
    match decode [tableWord nbits w] with
    | .ok i => some i
    | .error _ => none
  else none

/-- The fields of an input word, at the bit positions of R44. -/
def unpackVA64 (w : U64) : VA64 :=
  { ign := w.extractLsb' 48 16
    pgd := w.extractLsb' 39 9
    pud := w.extractLsb' 30 9
    pmd := w.extractLsb' 21 9
    ptd := w.extractLsb' 12 9
    data := w.extractLsb' 0 12 }

/-- The input word with these fields, bit 63 on the left (R44). -/
def packVA64 (f : VA64) : U64 :=
  f.ign ++ (f.pgd ++ (f.pud ++ (f.pmd ++ (f.ptd ++ f.data))))

/-- The value of a `hexdigit` byte: `0`–`9`, `a`–`f`, `A`–`F` (R74, R75); none for any other byte. -/
def hexDigit? (c : Byte) : Option Nat :=
  let n := c.toNat
  if 48 ≤ n ∧ n ≤ 57 then some (n - 48)
  else if 97 ≤ n ∧ n ≤ 102 then some (n - 87)
  else if 65 ≤ n ∧ n ≤ 70 then some (n - 55)
  else none

/-- The text without its optional radix mark `0x` or `0X` (R74). -/
def dropRadixMark : Text → Text
  | a :: b :: rest =>
    if a = 0x30#8 ∧ (b = 0x78#8 ∨ b = 0x58#8) then rest else a :: b :: rest
  | s => s

/-- The base-16 value of a digit sequence after digits worth `acc`; none at the first byte that is no `hexdigit` (R75, R76). -/
def hexAccumulate (acc : Nat) : Text → Option Nat
  | [] => some acc
  | c :: rest =>
    match hexDigit? c with
    | some d => hexAccumulate (16 * acc + d) rest
    | none => none

/-- `HexValue` of R75 where `HexText` of R74 holds, none where it does not: at least one digit, and nothing else (R76–R78). The
value has no upper bound. -/
def hexValue? (s : Text) : Option Nat :=
  match dropRadixMark s with
  | [] => none
  | c :: rest => hexAccumulate 0 (c :: rest)

/-- `va_i <- trunc_64(N)`: the reduction of a parsed value to the port width, with no error (R79, C4). -/
def portWord (n : Nat) : U64 := BitVec.ofNat 64 n

/-- The instruction that an address text stands for (R52, R75, R79). -/
def decodeText (s : Text) : Option Instr :=
  match hexValue? s with
  | some n => some (.decompose (portWord n))
  | none => none

/-- The lower-case spelling of one hexadecimal digit (R74). -/
def hexDigitByte (d : Nat) : Byte :=
  if d < 10 then BitVec.ofNat 8 (48 + d) else BitVec.ofNat 8 (87 + d)

/-- The low `k` hexadecimal digits of `n`, most significant first. -/
def hexDigits : Nat → Nat → Text
  | 0, _ => []
  | k + 1, n => hexDigits k (n / 16) ++ [hexDigitByte (n % 16)]

/-- One address text of an instruction: `0x` and the word's sixteen digits (R52). The spec admits other spellings of the same
word; this one is the model's (log entry 8). -/
def encodeText : Instr → Text
  | .decompose va => ascii ['0', 'x'] ++ hexDigits 16 va.toNat

end Sys2Proof
end

