-- ==== Sys2Proof/Machine/State.lean ====
section
/-! DEFINITION. The state: a snapshot of the block's ports, the host adapter's invocation, and the model's own counter
(INVENTORY.md, State). The block itself holds nothing (R16). -/

namespace Sys2Proof.Machine

/-- A DecompositionResult: the values on the five output ports, most significant level first (R46, R48). -/
structure Result where
  /-- Port `pgd_o` (R60). -/
  pgd : U9
  /-- Port `pud_o` (R59). -/
  pud : U9
  /-- Port `pmd_o` (R58). -/
  pmd : U9
  /-- Port `ptd_o` (R57). -/
  ptd : U9
  /-- Port `data_o` (R56). -/
  data : U12
deriving DecidableEq, Repr

/-- The five fields of 48 port bits, in the order of R68. -/
def Result.ofBits (b : BitVec 48) : Result :=
  { pgd := b.extractLsb' 39 9
    pud := b.extractLsb' 30 9
    pmd := b.extractLsb' 21 9
    ptd := b.extractLsb' 12 9
    data := b.extractLsb' 0 12 }

/-- What one invocation receives, and nothing else (R71). -/
structure Invocation where
  /-- `PROGRAM_NAME`, the name it was invoked by (D18). -/
  programName : Text
  /-- The positional command-line arguments, the program name excluded. -/
  args : List Text
deriving DecidableEq, Repr

/-- What a claim may observe of one invocation (R86). -/
structure Observation where
  /-- The bytes written to standard output. -/
  stdout : Text
  /-- The exit code. -/
  exitCode : Nat
deriving DecidableEq, Repr

/-- The host adapter's two error kinds (R88), each with what its effect names. -/
inductive HostError where
  /-- R89: fewer than one positional argument. -/
  | usageError (programName : Text)
  /-- R90: the address text is not valid hexadecimal. -/
  | parseError (badText : Text)
deriving DecidableEq, Repr

/-- Where the host adapter stands in R85, and so which agent moves next. -/
inductive Phase where
  /-- No invocation is in progress. -/
  | idle
  /-- The value of this address text has been put on `va_i`; the block evaluates it next (R79). -/
  | presented (addressText : Text)
  /-- The block has evaluated; the adapter reads the outputs and prints next (R80). -/
  | evaluated (addressText : Text)
deriving DecidableEq, Repr

/-- The machine's state. -/
structure State where
  /-- Port `va_i`: the value driven on it (R17, R18); none before it is ever driven (U10). -/
  vaI : Option U64
  /-- How much of `T_SETTLE` is still to pass since `va_i` last changed (R107). -/
  settleLeft : Nat
  /-- The values the ports `pgd_o`, `pud_o`, `pmd_o`, `ptd_o` and `data_o` show (R17, R19). -/
  out : Result
  /-- Where the invocation in progress stands (R85). -/
  phase : Phase
  /-- Standard output of the invocation (R13, R80). -/
  stdout : Text
  /-- Standard error of the invocation (R90); not observed (R86). -/
  stderr : Text
  /-- The invocations still to run, oldest first (R71). -/
  pending : List Invocation
  /-- The observations of the finished invocations, oldest first (R86). -/
  finished : List Observation
  /-- The MODEL's own: how many free port values have been drawn (log entry 3). -/
  freeCount : Nat
deriving DecidableEq, Repr

/-- The faults of the machine: none. "The block raises no exception" (R87), the two host errors have effects and are modelled as
such (R89, R90), and nothing else stops the machine. Safe: no step ends in a fault. -/
inductive Fault where
deriving DecidableEq, Repr

/-- The refusals of the machine. -/
inductive Refusal where
  /-- An instruction that has no meaning yet, raised by exec's arm; no arm raises it. Safe. -/
  | notModelled (mnemonic : String)
  /-- The word on `va_i` does not decode, raised by the block's evaluation; no word raises it (R43, R49). Safe. -/
  | notDecoded (e : DecodeError)
deriving DecidableEq, Repr

/-- The machine right after power-up: `va_i` not driven, the outputs showing any value (R103, U10), no invocation (R104, R106).
The block has nothing to reset (R29, R102). Log entries 2 to 5. -/
def State.reset : State :=
  { vaI := none
    settleLeft := 0
    out := Result.ofBits (Config.openPortBits 0)
    phase := .idle
    stdout := []
    stderr := []
    pending := []
    finished := []
    freeCount := 1 }

end Sys2Proof.Machine
end

