-- ==== Sys2Proof/Machine/Operands.lean ====
section
/-! DEFINITION. The function of the block: the step sequence of R55, the extractor over a layout (R4, R9), and the views of a
result (R48, R63, R68). The block has no flags (R23), so there is no flag computation. -/

namespace Sys2Proof.Machine

/-- The five values that R55's steps mask out, each still 64 bits wide. -/
structure StepOffsets where
  pgdOffset : U64
  pudOffset : U64
  pmdOffset : U64
  ptdOffset : U64
  dataOffset : U64
deriving DecidableEq, Repr

/-- The nine steps of R55: mask, then shift and mask. -/
def stepOffsets (va : U64) : StepOffsets :=
  let a1 := va >>> 12
  let a2 := a1 >>> 9
  let a3 := a2 >>> 9
  let a4 := a3 >>> 9
  { dataOffset := va &&& 0xFFF#64
    ptdOffset := a1 &&& 0x1FF#64
    pmdOffset := a2 &&& 0x1FF#64
    pudOffset := a3 &&& 0x1FF#64
    pgdOffset := a4 &&& 0x1FF#64 }

/-- DECOMPOSE's function: the values of the nine steps, each truncated to its port (R55). -/
def decompose (va : U64) : Result :=
  let o := stepOffsets va
  { pgd := o.pgdOffset.setWidth 9
    pud := o.pudOffset.setWidth 9
    pmd := o.pmdOffset.setWidth 9
    ptd := o.ptdOffset.setWidth 9
    data := o.dataOffset.setWidth 12 }

/-- Shift and mask, width by width from the least significant field: the extractor over any list of widths (R4). -/
def extractWidths : List Nat → U64 → List Nat
  | [], _ => []
  | w :: ws, a => (a &&& BitVec.ofNat 64 (2 ^ w - 1)).toNat :: extractWidths ws (a >>> w)

/-- The parameterized extractor: it admits only the one layout and refuses any other (R9, R6). -/
def extractByLayout (l : PagingLayout) (va : U64) : Option (List Nat) :=
  if l.wellFormed then some (extractWidths l.widths va) else none

/-- The fields in extraction order: data, PTD, PMD, PUD, PGD (R48, R55), as natural numbers. -/
def Result.extractionOrder (r : Result) : List Nat :=
  [r.data.toNat, r.ptd.toNat, r.pmd.toNat, r.pud.toNat, r.pgd.toNat]

/-- The fields in canonical order: PGD, PUD, PMD, PTD, data (R48), as natural numbers. -/
def Result.canonicalOrder (r : Result) : List Nat :=
  [r.pgd.toNat, r.pud.toNat, r.pmd.toNat, r.ptd.toNat, r.data.toNat]

/-- `{pgd, pud, pmd, ptd, data}`, 48 bits (R68). -/
def Result.packed (r : Result) : BitVec 48 :=
  r.pgd ++ (r.pud ++ (r.pmd ++ (r.ptd ++ r.data)))

/-- The address that a result stands for, in exact arithmetic (R63). -/
def Result.reconstruct (r : Result) : Nat :=
  r.data.toNat + (r.ptd.toNat <<< 12) + (r.pmd.toNat <<< 21) + (r.pud.toNat <<< 30) + (r.pgd.toNat <<< 39)

end Sys2Proof.Machine
end

