-- ==== Sys2Proof/Machine/Presentation.lean ====
section
/-! DEFINITION. What the host adapter writes (spec/41_host_cli.md section 4, spec/60_exceptions.md section 2), and one whole
invocation as R85 gives it. -/

namespace Sys2Proof.Machine

/-- The decimal digits of `v`, most significant first; `fuel` bounds their number. -/
def decimalDigits : Nat → Nat → List Nat
  | 0, _ => []
  | fuel + 1, v => if v < 10 then [v] else decimalDigits fuel (v / 10) ++ [v % 10]

/-- `dec(v)`: decimal, no sign, no leading zeros, no padding; zero is `0` (R81). -/
def dec (v : Nat) : Text :=
  (decimalDigits (v + 1) v).map fun d => BitVec.ofNat 8 (48 + d)

/-- The line feed `"\n"` that ends a line (D17, D18). -/
def lineFeed : Text := [0x0A#8]

/-- The output line of R80: the address text as received, then the five fields in canonical order. -/
def resultLine (s : Text) (r : Result) : Text :=
  s ++ ascii [':', ' ', 'P', 'G', 'D', '='] ++ dec r.pgd.toNat
    ++ ascii [',', ' ', 'P', 'U', 'D', '='] ++ dec r.pud.toNat
    ++ ascii [',', ' ', 'P', 'M', 'D', '='] ++ dec r.pmd.toNat
    ++ ascii [',', ' ', 'P', 'T', 'D', '='] ++ dec r.ptd.toNat
    ++ ascii [',', ' ', 'd', 'a', 't', 'a', '='] ++ dec r.data.toNat ++ lineFeed

/-- The usage message of R89. -/
def usageMessage (programName : Text) : Text :=
  ascii ['u', 's', 'a', 'g', 'e', ':', ' '] ++ programName
    ++ ascii [' ', '0', 'x', '[', 'a', 'd', 'd', 'r', 'e', 's', 's', ']'] ++ lineFeed

/-- The ParseError diagnostic: unspecified text that names the bad input (R90, U4; log entry 7). -/
def diagnostic (badText : Text) : Text :=
  Config.diagnosticLead badText ++ badText ++ Config.diagnosticTail badText

/-- What error `e` writes to standard output (R88, R89, R90). -/
def HostError.stdout : HostError → Text
  | .usageError p => usageMessage p
  | .parseError _ => []

/-- What error `e` writes to standard error (R89, R90). -/
def HostError.stderr : HostError → Text
  | .usageError _ => []
  | .parseError t => diagnostic t

/-- The exit code of error `e` (R88). -/
def HostError.exitCode : HostError → Nat
  | .usageError _ => 1
  | .parseError _ => Config.parseErrorExit

/-- The checks of R91, in their order: the usage check, then the parse check; what passes both is the address text and its
value. Arguments after the first are ignored (R73). -/
def checkArguments (inv : Invocation) : Except HostError (Text × Nat) :=
  match inv.args with
  | [] => .error (.usageError inv.programName)
  | s :: _ =>
    match hexValue? s with
    | none => .error (.parseError s)
    | some n => .ok (s, n)

/-- The invocation relation of R85 as a function from what an invocation receives to what is observed of it. -/
def invoke (inv : Invocation) : Observation :=
  match checkArguments inv with
  | .error e => { stdout := e.stdout, exitCode := e.exitCode }
  | .ok (s, n) => { stdout := resultLine s (decompose (portWord n)), exitCode := 0 }

end Sys2Proof.Machine
end

