-- ==== Sys2Proof/Machine/Ops.lean ====
section
/-! DEFINITION. The named operations over the state: the ports (R70, R107), the host primitives `Emit` and `Exit` (R13), and
taking a host error, the one shared operation of that kind (R13 `HostError`, R88–R93). There is no return from it (R93). -/

namespace Sys2Proof.Machine

/-- The outputs have followed `va_i`: it is driven and has been stable for `T_SETTLE` (R107). -/
def State.settled (s : State) : Bool :=
  s.vaI.isSome && s.settleLeft == 0

/-- The host reads the outputs: a result only where one may be relied on; a read made before that has no meaning (R70, R107). -/
def State.readOutputs (s : State) : Option Result :=
  if s.settled then some s.out else none

/-- The output ports show any value (U8, U10), a fresh one each time. -/
def State.showOpenValue (s : State) : State :=
  { s with out := Result.ofBits (Config.openPortBits s.freeCount), freeCount := s.freeCount + 1 }

/-- The block evaluated on a stable `va`: one indivisible step from one sample to all five outputs (R34, R55, R109).
That `va` is put on `va_i`, and that the settling interval has then passed, are log entries 1 and 4 (DESIGN CHOICE). -/
def State.evaluate (va : U64) (s : State) : State :=
  { s with vaI := some va, settleLeft := 0, out := decompose va }

/-- The host puts `va` on `va_i`. The same value again is no change (log entry 4), and an open value
then shown stays (log entry 16, DESIGN CHOICE). A new value starts the settling interval, and until it has
passed the outputs show any value (R70, R107, U8). -/
def State.present (va : U64) (s : State) : State :=
  if s.vaI = some va then s
  else
    { s with
      vaI := some va
      settleLeft := Config.tSettle
      out := if Config.tSettle = 0 then decompose va else Result.ofBits (Config.openPortBits s.freeCount)
      freeCount := s.freeCount + 1 }

/-- A duration `d` comes off what is left of the settling interval (R107; log entry 4). -/
def State.passTime (d : Nat) (s : State) : State := { s with settleLeft := s.settleLeft - d }

/-- The host holds `va_i` for a duration `d`: once it has been stable for `T_SETTLE` the outputs follow it, before that they show
any value, and so they do while `va_i` is not driven (R107, U8, U10). -/
def State.hold (d : Nat) (s : State) : State :=
  match s.vaI with
  | none => s.showOpenValue
  | some va =>
    if s.settleLeft ≤ d then s.evaluate va
    else s.showOpenValue.passTime d

/-- The host adapter goes to a phase of R85. -/
def State.enter (p : Phase) (s : State) : State := { s with phase := p }

/-- `Emit(stdout, t)`: appends to standard output (R13). -/
def State.emit (t : Text) (s : State) : State := { s with stdout := s.stdout ++ t }

/-- Appends to standard error (R90). -/
def State.emitError (t : Text) (s : State) : State := { s with stderr := s.stderr ++ t }

/-- `Exit(c)`: ends the invocation with exit code `c`; what remains of it is what it wrote and the code (R13, R86, R92). -/
def State.exitWith (c : Nat) (s : State) : State :=
  { s with phase := .idle, finished := s.finished ++ [{ stdout := s.stdout, exitCode := c }] }

/-- `HostError(e)`: ends the invocation with the effects of error `e` (R13, R89, R90, R92). The block does not move: outputs
that are open (U8, U10) keep the value shown, with no fresh draw (log entry 16, DESIGN CHOICE). -/
def State.hostError (e : HostError) (s : State) : State :=
  ((s.emit e.stdout).emitError e.stderr).exitWith e.exitCode

/-- A fresh invocation: nothing is carried over from the one before (R84, R104). -/
def State.beginInvocation (rest : List Invocation) (s : State) : State :=
  { s with stdout := [], stderr := [], pending := rest }

end Sys2Proof.Machine
end

