-- ==== Sys2Proof/Machine/Decompose.lean ====
section
/-! DEFINITION. The meaning of DECOMPOSE. -/

namespace Sys2Proof.Machine

/-- DECOMPOSE: all five outputs from the one sample `va`, held on `va_i` until they have followed it (R55, R34, R107;
log entries 1 and 4, DESIGN CHOICE). No flag, no
exception, for any word (R66). -/
def execDecompose (va : U64) (s : State) : Host.Outcome State Fault Refusal :=
  .next (s.evaluate va)

end Sys2Proof.Machine
end

