-- ==== Sys2Proof/Machine/System.lean ====
section
/-! DEFINITION. Who moves next and what the move is: the block on its input port, or the host adapter on its invocation (R85). -/

namespace Sys2Proof.Machine

/-- The block's move: it evaluates the instruction on `va_i` (R19, R43). While `va_i` is not driven the outputs show any value
(U10). -/
def blockStep (s : State) : Host.Outcome State Fault Refusal :=
  match s.vaI with
  | none => .next s.showOpenValue
  | some w =>
    match decode [w] with
    | .ok i => exec i s
    | .error e => .refused (.notDecoded e)

/-- The adapter's first move (R85): the checks of R91, then either an error's effects or `va_i <- trunc_64(N)` (R79). -/
def startInvocation (inv : Invocation) (s : State) : State :=
  match checkArguments inv with
  | .error e => s.hostError e
  | .ok (t, n) => (s.present (portWord n)).enter (.presented t)

/-- The adapter's last move (R85): it reads the outputs, writes the line of R80 and exits with code 0 (R82). It
prints what the ports show, settled or not (log entry 11, DESIGN CHOICE), and open outputs keep the value shown (log
entry 16, DESIGN CHOICE). -/
def finishInvocation (t : Text) (s : State) : State :=
  (s.emit (resultLine t s.out)).exitWith 0

/-- The block's move within an invocation, after which the adapter goes on with address text `t`. -/
def blockStepFor (t : Text) (s : State) : Host.Outcome State Fault Refusal :=
  match blockStep s with
  | .next s' => .next (s'.enter (.evaluated t))
  | .fault r => .fault r
  | .refused r => .refused r

/-- One step of the block and its host adapter (R85; log entry 5). With no invocation in progress or waiting, the step is the
block's. -/
def systemStep (s : State) : Host.Outcome State Fault Refusal :=
  match s.phase with
  | .idle =>
    match s.pending with
    | [] => blockStep s
    | inv :: rest => .next (startInvocation inv (s.beginInvocation rest))
  | .presented t => blockStepFor t s
  | .evaluated t => .next (finishInvocation t s)

/-- `s` with `w` on `va_i` and the next step the block's own: no invocation in progress or waiting (log entry 5). -/
def State.loadWord (w : U64) (s : State) : State :=
  { s.present w with phase := .idle, pending := [] }

end Sys2Proof.Machine
end

