-- ==== Sys2Proof/Machine/Step.lean ====
section
/-! DEFINITION. The step, and the placing of an instruction where the step fetches: on the input port. -/

namespace Sys2Proof.Machine

/-- One step of the machine. -/
def step (s : State) : Host.Outcome State Fault Refusal := systemStep s

/-- `s` with the instruction of a table row's bits on `va_i`, evaluated by the next step. -/
def State.withFetchWord (s : State) (nbits w : Nat) : State := s.loadWord (tableWord nbits w)

end Sys2Proof.Machine
end

