-- ==== Sys2Proof/Machine/Platform.lean ====
section
/-! DEFINITION. Several instances (R99): they share nothing and exchange nothing. -/

namespace Sys2Proof.Machine

/-- Instance number `k` of a platform takes one step; no other instance moves, and a number that names no instance does nothing
(R99; log entry 12). Open outputs of the others keep the value shown (log entry 16, DESIGN CHOICE). -/
def platformStep : List State → Nat → Host.Outcome (List State) Fault Refusal
  | [], _ => .next []
  | s :: rest, 0 =>
    match step s with
    | .next s' => .next (s' :: rest)
    | .fault r => .fault r
    | .refused r => .refused r
  | s :: rest, k + 1 =>
    match platformStep rest k with
    | .next rest' => .next (s :: rest')
    | .fault r => .fault r
    | .refused r => .refused r

end Sys2Proof.Machine
end

