-- ==== Sys2Proof/Safety.lean ====
section
/-! DEFINITION. The terms the statements use: the hexadecimal grammar as R74 writes it, what the ports promise, and the invariant
of the machine. -/

namespace Sys2Proof

/-- `hexdigit` of R74. -/
def IsHexDigit (c : Byte) : Prop :=
  (0x30#8 ≤ c ∧ c ≤ 0x39#8) ∨ (0x61#8 ≤ c ∧ c ≤ 0x66#8) ∨ (0x41#8 ≤ c ∧ c ≤ 0x46#8)

/-- The optional radix mark of R74: nothing, `0x` or `0X`. -/
def IsRadixMark (p : Text) : Prop :=
  p = [] ∨ p = ascii ['0', 'x'] ∨ p = ascii ['0', 'X']

/-- The grammar of R74, "with nothing before and nothing after". -/
def HexText (s : Text) : Prop :=
  ∃ p ds : Text, s = p ++ ds ∧ IsRadixMark p ∧ ds ≠ [] ∧ ∀ c ∈ ds, IsHexDigit c

/-- What a hexadecimal digit stands for: "Digits `a`–`f` and `A`–`F` stand for 10–15" (R75); 0 for any other byte. -/
def digitValue (c : Byte) : Nat :=
  if c ≤ 0x39#8 then c.toNat - 0x30 else if c ≤ 0x46#8 then c.toNat - 0x41 + 10 else c.toNat - 0x61 + 10

/-- The base-16 value of a digit sequence (R75): the first digit weighs `16^(number of digits after it)`. -/
def positionalValue : Text → Nat
  | [] => 0
  | c :: rest => digitValue c * 16 ^ rest.length + positionalValue rest

/-- The number that a text of decimal digits spells (R81), read from the left. -/
def decimalValue (t : Text) : Nat :=
  t.foldl (fun acc c => 10 * acc + (c.toNat - 0x30)) 0

end Sys2Proof

namespace Sys2Proof.Machine

/-- The outputs follow the input: once `va_i` has settled, each output equals the function of R55 applied to it (R19, R29). -/
def State.OutputsFollow (s : State) : Prop :=
  ∀ va, s.vaI = some va → s.settleLeft = 0 → s.out = decompose va

/-- `va_i` carries the reduced value of the address text `t`, and nothing has been printed (R79, R92). -/
def State.CarriesAddress (t : Text) (s : State) : Prop :=
  ∃ n, hexValue? t = some n ∧ s.vaI = some (portWord n) ∧ s.stdout = []

/-- The invariant of the machine with its host adapter. -/
structure State.Inv (s : State) : Prop where
  /-- R19: the settled outputs are the function of the input. -/
  outputs : s.OutputsFollow
  /-- R107: no more than the settling interval is left. -/
  interval : s.settleLeft ≤ Config.tSettle
  /-- R79: while an address is presented, `va_i` carries it. -/
  presented : ∀ t, s.phase = .presented t → s.CarriesAddress t
  /-- R70: the adapter reads only what has settled. -/
  evaluated : ∀ t, s.phase = .evaluated t → s.CarriesAddress t ∧ s.settleLeft = 0
  /-- R85: what was observed of each finished invocation is what the invocation relation gives. -/
  observed : ∀ o ∈ s.finished, ∃ inv, o = invoke inv

/-- The next step is the block's own: no invocation is in progress or waiting. -/
def State.BlockTurn (s : State) : Prop :=
  s.phase = .idle ∧ s.pending = []

/-- The host adapter's part of two states agrees. -/
def State.SameAdapter (s t : State) : Prop :=
  t.phase = s.phase ∧ t.stdout = s.stdout ∧ t.stderr = s.stderr ∧ t.pending = s.pending ∧ t.finished = s.finished

end Sys2Proof.Machine
end

