-- ==== Sys2Proof/Certificates/Slice0/Obligations.lean ====
section
/-! DEFINITION. The statements for the provers. Each docstring names the rules of spec/ it formalises; OBLIGATIONS.json lists them. -/

open Sys2Proof Sys2Proof.Machine

/-- Every 64-bit word decodes as DECOMPOSE of that word (R43). -/
def Obligations.EveryWordDecodesAsDecompose : Prop :=
  decomposeMask = 0 ∧ decomposeMatch = 0 ∧ ∀ w : U64, decode [w] = .ok (.decompose w)

/-- The decoder accepts exactly the encodings, and decode of encode i is i (R43, R51, R54). MODEL'S CHOICE: that the decoder
takes a sequence of words and refuses none and several by name is log entry 9 (DEDUCED). -/
def Obligations.DecodeAcceptsExactlyEncodings : Prop :=
  ∀ (ws : List U64) (i : Instr), decode ws = .ok i ↔ ws = encode i

/-- Words written out from the spec's field diagram decode to the instruction they stand for (R44, spec/95_test_vectors.md
section 5 (P1, P2)). -/
def Obligations.SpecWordsDecode : Prop :=
  decode [0b1111111111111111111111111111111110000001000000000000000000000000#64] = .ok (.decompose 0xFFFFFFFF81000000#64) ∧
  decode [0b1111111111111111100010001000000000000000000000000000000000000000#64] = .ok (.decompose 0xFFFF888000000000#64) ∧
  decode [0b0000000000000000011111111111111111111111111111111111111111111111#64] = .ok (.decompose 0x00007FFFFFFFFFFF#64) ∧
  decode [0b0000000000000000000000000000000000000001111111101110000000000000#64] = .ok (.decompose 0x0000000001FEE000#64)

/-- Format VA64: six fields at their bit positions, five of which are the result (R44). -/
def Obligations.FormatFieldsReachTheirPorts : Prop :=
  (∀ f : VA64, (packVA64 f).toNat = f.ign.toNat * 2 ^ 48 + f.pgd.toNat * 2 ^ 39 + f.pud.toNat * 2 ^ 30
      + f.pmd.toNat * 2 ^ 21 + f.ptd.toNat * 2 ^ 12 + f.data.toNat) ∧
  (∀ f : VA64, unpackVA64 (packVA64 f) = f) ∧
  (∀ w : U64, packVA64 (unpackVA64 w) = w) ∧
  (∀ (f : VA64) (s : State), ∃ t, exec (.decompose (packVA64 f)) s = .next t ∧
      t.out = { pgd := f.pgd, pud := f.pud, pmd := f.pmd, ptd := f.ptd, data := f.data })

/-- Decode and encode agree on the textual form, for every instruction (R52, R74, R75, R79). MODEL'S CHOICE: the spelling the
encoder writes is log entry 8 (DESIGN CHOICE), and the byte codes of the characters are log entry 10 (PRESUMED). -/
def Obligations.AddressTextRoundTrip : Prop :=
  ∀ i : Instr, i.wellFormed = true → HexText (encodeText i) ∧ decodeText (encodeText i) = some i

/-- DECOMPOSE completes for all 2^64 operands in every state (R55, R66). MODEL'S CHOICE: that exec puts its operand on va_i,
whatever was there, is log entry 1 (DESIGN CHOICE), and that one exec leaves va_i settled and the result readable is log
entry 4 (DESIGN CHOICE); the completion and the result are R66 and R55. -/
def Obligations.DecomposeCompletesOnEveryWord : Prop :=
  ∀ (va : U64) (s : State), ∃ t, exec (.decompose va) s = .next t ∧
    t.vaI = some va ∧ t.settleLeft = 0 ∧ t.out = decompose va ∧ t.readOutputs = some (decompose va)

/-- The five output ports carry the bit ranges of va, with the spec's corner cases and examples (R56, R57, R58, R59, R60). -/
def Obligations.OutputPortsFollowClosedForms : Prop :=
  (∀ (va : U64) (s : State), ∃ t, exec (.decompose va) s = .next t ∧
    t.out.data = va.extractLsb' 0 12 ∧ t.out.data.setWidth 64 = va &&& 0xFFF#64 ∧
    t.out.ptd = va.extractLsb' 12 9 ∧ t.out.ptd.setWidth 64 = (va >>> 12) &&& 0x1FF#64 ∧
    t.out.pmd = va.extractLsb' 21 9 ∧ t.out.pmd.setWidth 64 = (va >>> 21) &&& 0x1FF#64 ∧
    t.out.pud = va.extractLsb' 30 9 ∧ t.out.pud.setWidth 64 = (va >>> 30) &&& 0x1FF#64 ∧
    t.out.pgd = va.extractLsb' 39 9 ∧ t.out.pgd.setWidth 64 = (va >>> 39) &&& 0x1FF#64) ∧
  (∀ p ∈ ([ (0xFFF#64, [0, 0, 0, 0, 4095]), (0x1FF000#64, [0, 0, 0, 511, 0]), (0x200000#64, [0, 0, 1, 0, 0]),
            (0x1000#64, [0, 0, 0, 1, 0]), (0x3FE00000#64, [0, 0, 511, 0, 0]), (0x1FEE000#64, [0, 0, 15, 494, 0]),
            (0x7FC0000000#64, [0, 511, 0, 0, 0]), (0x40000000#64, [0, 1, 0, 0, 0]),
            (0x0000800000000000#64, [256, 0, 0, 0, 0]), (0x0001000000000000#64, [0, 0, 0, 0, 0]),
            (0xFFFF800000000000#64, [256, 0, 0, 0, 0]), (0x8000000000#64, [1, 0, 0, 0, 0]) ] : List (U64 × List Nat)),
    ∀ s : State, ∃ t, exec (.decompose p.1) s = .next t ∧ t.out.canonicalOrder = p.2)

/-- The step sequence, read in exact arithmetic, and truncation that loses nothing (R55, spec/00_scope.md section 4). -/
def Obligations.StepSequenceIsDivisionAndRemainder : Prop :=
  ∀ (va : U64) (s : State), ∃ t, exec (.decompose va) s = .next t ∧
    t.out.extractionOrder =
      [ va.toNat % Config.pageSize, va.toNat / 2 ^ 12 % Config.entriesPerTable, va.toNat / 2 ^ 21 % Config.entriesPerTable,
        va.toNat / 2 ^ 30 % Config.entriesPerTable, va.toNat / 2 ^ 39 % Config.entriesPerTable ]

/-- The parameterized extractor admits only the one layout and there equals the step sequence (R4, R6, R9, R48). -/
def Obligations.LayoutExtractorIsDecompose : Prop :=
  (∀ va : U64, extractByLayout Config.layout va = some (decompose va).extractionOrder) ∧
  (∀ (l : PagingLayout) (va : U64), l ≠ Config.layout → extractByLayout l va = none)

/-- The wired layout: 12 offset bits, four levels of 9 bits in the order PTD, PMD, PUD, PGD, 48 bits consumed (R8, R9, R10).
-/
def Obligations.LayoutConsumesFortyEightBits : Prop :=
  Config.layout.addrWidth = 64 ∧ Config.layout.offsetWidth = 12 ∧
  Config.layout.levels = [(.ptd, 9), (.pmd, 9), (.pud, 9), (.pgd, 9)] ∧ Config.layout.consumed = 48

/-- Range law on the 64-bit values of the steps, before any truncation (R62). -/
def Obligations.ResultFieldsStayInRange : Prop :=
  ∀ va : U64,
    ((stepOffsets va).dataOffset.toNat ≤ 4095 ∧ (stepOffsets va).ptdOffset.toNat ≤ 511 ∧ (stepOffsets va).pmdOffset.toNat ≤ 511 ∧
      (stepOffsets va).pudOffset.toNat ≤ 511 ∧ (stepOffsets va).pgdOffset.toNat ≤ 511) ∧
    extractWidths Config.layout.widths va =
      [ (stepOffsets va).dataOffset.toNat, (stepOffsets va).ptdOffset.toNat, (stepOffsets va).pmdOffset.toNat,
        (stepOffsets va).pudOffset.toNat, (stepOffsets va).pgdOffset.toNat ] ∧
    ∀ s : State, ∃ t, exec (.decompose va) s = .next t ∧ t.out.extractionOrder = extractWidths Config.layout.widths va

/-- Reconstruction law on addresses below 2^48 (R63). -/
def Obligations.ResultReconstructsLowAddresses : Prop :=
  ∀ (a : U64) (s : State), a.toNat ≤ 2 ^ 48 - 1 → ∃ t, exec (.decompose a) s = .next t ∧
    t.out.data.toNat + (t.out.ptd.toNat <<< 12) + (t.out.pmd.toNat <<< 21) + (t.out.pud.toNat <<< 30)
      + (t.out.pgd.toNat <<< 39) = a.toNat

/-- High-bit discard law (R64). -/
def Obligations.HighBitsAreDiscarded : Prop :=
  (∀ (a : U64) (s s' : State), ∃ t t', exec (.decompose a) s = .next t ∧
    exec (.decompose (BitVec.ofNat 64 (a.toNat % 2 ^ 48))) s' = .next t' ∧ t.out = t'.out) ∧
  (∀ (a b : U64) (s s' : State), a.extractLsb' 0 48 = b.extractLsb' 0 48 →
    ∃ t t', exec (.decompose a) s = .next t ∧ exec (.decompose b) s' = .next t' ∧ t.out = t'.out)

/-- Two words give one result only if they agree on bits 47:0 (R63, R68). -/
def Obligations.ResultDeterminesLowBits : Prop :=
  ∀ (a b : U64) (s s' t t' : State), exec (.decompose a) s = .next t → exec (.decompose b) s' = .next t' →
    t.out = t'.out → a.toNat % 2 ^ 48 = b.toNat % 2 ^ 48

/-- Packed view: the concatenation of the fields is va[47:0] (R68). -/
def Obligations.PackedResultIsLowFortyEightBits : Prop :=
  ∀ (va : U64) (s : State), ∃ t, exec (.decompose va) s = .next t ∧
    (t.out.pgd ++ (t.out.pud ++ (t.out.pmd ++ (t.out.ptd ++ t.out.data))) : BitVec 48) = va.extractLsb' 0 48

/-- DECOMPOSE changes the ports and nothing else (R16, R23, R30). MODEL'S CHOICE: that va_i carries the operand afterwards is
log entry 1 (DESIGN CHOICE), and freeCount is the model's own counter, log entry 3 (DESIGN CHOICE); the cited rules say only
that there is no register, flag or memory to change. -/
def Obligations.DecomposeFrame : Prop :=
  ∀ (va : U64) (s : State), ∃ t, exec (.decompose va) s = .next t ∧
    s.SameAdapter t ∧ t.freeCount = s.freeCount ∧ t.vaI = some va

/-- A step runs the instruction decoded from va_i (R19, R43, R85). MODEL'S CHOICE: when the step is the block's own, and that
it takes the adapter from its presented to its reading phase, is log entry 5 (DESIGN CHOICE); the rules cited give the
function, the decoding and the order of an invocation. -/
def Obligations.StepRunsTheDecodedInstruction : Prop :=
  ∀ (s : State) (w : U64) (i : Instr), s.vaI = some w → decode [w] = .ok i →
    (s.BlockTurn → step s = exec i s) ∧
    (∀ a, s.phase = .presented a → ∃ t, exec i s = .next t ∧ step s = .next (t.enter (.evaluated a)))

/-- A word placed on the input port is run by the very next step (R18, R43). MODEL'S CHOICE: what withFetchWord sets (the
word presented, the adapter idle, the queue empty) and that the very next step is the evaluation are log entry 5 (DESIGN
CHOICE). -/
def Obligations.PlacedWordRunsNext : Prop :=
  ∀ (s : State) (nbits w : Nat) (i : Instr), decodeTableWord nbits w = some i →
    step (s.withFetchWord nbits w) = exec i (s.withFetchWord nbits w)

/-- No state makes the machine fault or refuse (R66, R87, R92). MODEL'S CHOICE: what a step is in each phase is log entry 5,
and with va_i not driven it shows a free value, log entries 2 (DEDUCED) and 3 (DESIGN CHOICE). -/
def Obligations.StepAlwaysAnswersNext : Prop :=
  ∀ s : State, ∃ t, step s = .next t

/-- Determinism: the result depends on va_i alone (R15, R65). MODEL'S CHOICE: that one step makes the result readable even
where some of the settling interval is left is log entry 4 (DESIGN CHOICE), and when a step is the block's own is log entry 5
(DESIGN CHOICE). -/
def Obligations.BlockDependsOnInputAlone : Prop :=
  ∀ (s s' : State) (va : U64), s.vaI = some va → s'.vaI = some va → s.BlockTurn → s'.BlockTurn →
    ∃ t t', step s = .next t ∧ step s' = .next t' ∧
      t.readOutputs = some (decompose va) ∧ t'.readOutputs = some (decompose va)

/-- Evaluating again changes nothing (R35). MODEL'S CHOICE: when a step is the block's own is log entry 5, and that the first
step also ends the settling interval is log entry 4 (both DESIGN CHOICE). -/
def Obligations.EvaluationIsIdempotent : Prop :=
  ∀ (s : State) (va : U64), s.vaI = some va → s.BlockTurn → ∃ t, step s = .next t ∧ step t = .next t

/-- Before va_i is driven no result may be read (R103, R107, spec/93_implementation_defined.md U10). MODEL'S CHOICE: that an
undriven va_i holds no value is log entry 2 (DEDUCED), that the outputs then show a free value counted by freeCount is log
entry 3 (DESIGN CHOICE), and when a step is the block's own is log entry 5 (DESIGN CHOICE). -/
def Obligations.UndrivenInputGivesNoResult : Prop :=
  ∀ s : State, s.vaI = none → s.BlockTurn → ∃ t, step s = .next t ∧ t.vaI = none ∧ t.readOutputs = none ∧
    t.settleLeft = s.settleLeft ∧ s.SameAdapter t

/-- The machine's invariant holds right after power-up (R29, R102, R103, R104). MODEL'S CHOICE: the fields it speaks of at
reset are log entries 2 (DEDUCED), 3, 4 and 5 (DESIGN CHOICE). -/
def Obligations.InvariantAtReset : Prop :=
  State.reset.Inv

/-- What power-up leaves (R29, R103, R104, R106). MODEL'S CHOICE: that an undriven va_i holds no value is log entry 2
(DEDUCED), and that the queue of invocations starts empty is log entry 5 (DESIGN CHOICE). -/
def Obligations.ResetLeavesNothingToRead : Prop :=
  State.reset.vaI = none ∧ State.reset.readOutputs = none ∧ State.reset.BlockTurn ∧
  State.reset.stdout = [] ∧ State.reset.stderr = [] ∧ State.reset.finished = []

/-- Every step keeps the machine's invariant (R19, R29, R79, R85, R107). MODEL'S CHOICE: durations as natural numbers are log
entry 4, and the phases and the list of observations are log entry 5 (both DESIGN CHOICE). -/
def Obligations.EveryStepKeepsTheInvariant : Prop :=
  ∀ s t : State, s.Inv → step s = .next t → t.Inv

/-- Presenting and holding keep the outputs following the input (R19, R70, R107). MODEL'S CHOICE: presenting and holding with
durations as natural numbers are log entry 4 (DESIGN CHOICE). -/
def Obligations.HostActionsKeepOutputsFollowing : Prop :=
  ∀ (s : State) (va : U64) (d : Nat), s.OutputsFollow → s.settleLeft ≤ Config.tSettle →
    ((s.present va).OutputsFollow ∧ (s.present va).settleLeft ≤ Config.tSettle) ∧
    ((s.hold d).OutputsFollow ∧ (s.hold d).settleLeft ≤ Config.tSettle)

/-- The stable-input requirement: a result is readable exactly when the interval has passed (R70, R107). MODEL'S CHOICE:
durations as natural numbers of an unnamed unit, and what is left of the interval as a field, are log entry 4 (DESIGN
CHOICE); that presenting the same value again is no change is log entry 4 (DEDUCED). That an open value then shown also stays
is log entry 16 (DESIGN CHOICE, unsafe). -/
def Obligations.ReadsWaitForTheSettlingInterval : Prop :=
  (∀ (s : State) (va : U64), s.vaI ≠ some va → (s.present va).vaI = some va ∧ (s.present va).settleLeft = Config.tSettle ∧
    (s.present va).readOutputs = if Config.tSettle = 0 then some (decompose va) else none) ∧
  (∀ (s : State) (va : U64), s.vaI = some va → s.present va = s) ∧
  (∀ (s : State) (va : U64) (d : Nat), s.vaI = some va →
    (d < s.settleLeft → (s.hold d).readOutputs = none ∧ (s.hold d).vaI = some va ∧ (s.hold d).settleLeft = s.settleLeft - d) ∧
    (s.settleLeft ≤ d → (s.hold d).readOutputs = some (decompose va) ∧ (s.hold d).vaI = some va)) ∧
  (∀ (s : State) (va : U64) (d e : Nat), s.vaI = some va →
    ((s.hold d).hold e).readOutputs = (s.hold (d + e)).readOutputs ∧
    ((s.hold d).hold e).settleLeft = (s.hold (d + e)).settleLeft)

/-- A presented value is evaluated by the next step, from any earlier input (R19, R103, R108). MODEL'S CHOICE: that one step
stands for holding va_i through the whole settling interval and evaluating, so that it gives a readable result however little
va_i had settled, is log entry 4 (DESIGN CHOICE), and when a step is the block's own is log entry 5 (DESIGN CHOICE). -/
def Obligations.PresentedValueIsEvaluatedNext : Prop :=
  ∀ (s : State) (va : U64), s.BlockTurn → ∃ t, step (s.present va) = .next t ∧ t.readOutputs = some (decompose va)

/-- A step changes va_i only when an invocation presents its address (R70, R79, R85). MODEL'S CHOICE: the queue and the
phases are log entry 5 (DESIGN CHOICE). -/
def Obligations.OnlyAnInvocationChangesTheInput : Prop :=
  ∀ s t : State, step s = .next t → t.vaI ≠ s.vaI →
    s.phase = .idle ∧ ∃ inv rest a more n, s.pending = inv :: rest ∧ inv.args = a :: more ∧
      hexValue? a = some n ∧ t.vaI = some (portWord n)

/-- The address text is accepted exactly when it matches the grammar (R74). MODEL'S PRESUMPTION: the byte codes of the
grammar's characters are ASCII, log entry 10 (PRESUMED), and x only in the radix mark is log entry 14 (DEDUCED); R74 gives
the grammar and names no code. -/
def Obligations.ParserAcceptsExactlyTheGrammar : Prop :=
  ∀ s : Text, (∃ n, hexValue? s = some n) ↔ HexText s

/-- The value of an accepted text is the base-16 value of its digits (R75). MODEL'S PRESUMPTION: the byte codes of the digits
and of the examples' characters are ASCII, log entry 10 (PRESUMED); R75 gives the values and the examples and names no code.
-/
def Obligations.TextValueIsBaseSixteen : Prop :=
  (∀ (p ds : Text) (k : Nat), IsRadixMark p → ds ≠ [] → (∀ c ∈ ds, IsHexDigit c) →
    hexValue? (p ++ ds) = some (positionalValue ds) ∧
    hexValue? (p ++ (List.replicate k 0x30#8 ++ ds)) = some (positionalValue ds)) ∧
  hexValue? (ascii ['0', 'x', '1', 'f', 'e', 'e', '0', '0', '0']) = some 33480704 ∧
  hexValue? (ascii ['1', 'f', 'e', 'e', '0', '0', '0']) = some 33480704 ∧
  hexValue? (ascii ['0', 'X', '0', '0', 'F', 'F']) = some 255

/-- Every text outside the grammar ends with ParseError, signs, spaces, underscores and stray x among them (R74, R76, R77,
R88, R90, spec/92_eei_decisions.md D14, D15). MODEL'S CHOICE: the empty standard output is log entry 7, following R88 and
D15, which warns claims off relying on it; the byte codes are log entry 10 (PRESUMED), and x only in the radix mark is log
entry 14 (DEDUCED). -/
def Obligations.ForeignCharactersEndWithParseError : Prop :=
  (∀ (p s : Text) (more : List Text), ¬ HexText s →
    checkArguments { programName := p, args := s :: more } = .error (.parseError s) ∧
    invoke { programName := p, args := s :: more } = { stdout := [], exitCode := Config.parseErrorExit }) ∧
  (∀ t ∈ [ascii ['1', 'x', '2'], ascii ['0', 'x', '0', 'x', '1'], ascii ['x', '1'], ascii ['0', 'x', 'X', '1']], ¬ HexText t) ∧
  (∀ (p s : Text) (more : List Text) (c : Byte), c ∈ s → ¬ IsHexDigit c → c ≠ 0x78#8 → c ≠ 0x58#8 →
    invoke { programName := p, args := s :: more } = { stdout := [], exitCode := Config.parseErrorExit }) ∧
  (∀ c ∈ ascii ['+', '-', ' ', '_'], ¬ IsHexDigit c ∧ c ≠ 0x78#8 ∧ c ≠ 0x58#8)

/-- The empty text and a bare radix mark end with ParseError (R78, R88, R90, spec/92_eei_decisions.md D15). MODEL'S CHOICE:
R78 says only that these texts end with ParseError; the empty standard output is log entry 7, following R88 and D15, the exit
code is log entry 6, and the byte codes are log entry 10 (PRESUMED). -/
def Obligations.EmptyTextsEndWithParseError : Prop :=
  ∀ (p : Text) (more : List Text), ∀ s ∈ [[], ascii ['0', 'x'], ascii ['0', 'X']],
    checkArguments { programName := p, args := s :: more } = .error (.parseError s) ∧
    invoke { programName := p, args := s :: more } = { stdout := [], exitCode := Config.parseErrorExit }

/-- The host presents N mod 2^64 for every accepted N, with no error (R79). MODEL'S CHOICE: that the value is presented in
the very step that takes the invocation up, and that the adapter is then at its presented phase, is log entry 5 (DESIGN
CHOICE); the values are R79. -/
def Obligations.ParsedValueIsReducedToThePort : Prop :=
  (∀ (s : State) (p a : Text) (more : List Text) (rest : List Invocation) (n : Nat), s.phase = .idle →
    s.pending = { programName := p, args := a :: more } :: rest → hexValue? a = some n →
    ∃ t w, step s = .next t ∧ t.vaI = some w ∧ w.toNat = n % 2 ^ 64 ∧ t.phase = .presented a ∧ t.finished = s.finished) ∧
  (∀ n : Nat, decompose (portWord n) = decompose (portWord (n % 2 ^ 48)))

/-- Numbers are spelled in decimal with no sign, leading zero or padding (R81, spec/92_eei_decisions.md D17). MODEL'S
PRESUMPTION: the digit bytes 30H to 39H are log entry 10 (PRESUMED); the number format is D17, which the spec marks as its
own choice. -/
def Obligations.DecimalSpellingReadsBack : Prop :=
  (∀ v : Nat, decimalValue (dec v) = v ∧ (∀ c ∈ dec v, 0x30#8 ≤ c ∧ c ≤ 0x39#8) ∧
    (v ≠ 0 → (dec v).head? ≠ some 0x30#8)) ∧
  dec 0 = ascii ['0']

/-- On success exactly one line is written and the exit code is 0 (R80, R81, R82, R107, spec/92_eei_decisions.md D17).
MODEL'S CHOICE: that the adapter prints what the ports show in every reading-phase state, unsettled or not, is log entry 11,
that the invocation ends in one step is log entry 5 (both DESIGN CHOICE), and the bytes with line feed 0AH are log entry 10
(PRESUMED); the line's form is R80, R81 and D17. That outputs which are open (va_i not driven or not settled) keep the value
shown, with no fresh draw, is log entry 16 (DESIGN CHOICE, unsafe). -/
def Obligations.SuccessWritesOneLineAndExitsZero : Prop :=
  (∀ (s : State) (a : Text), s.phase = .evaluated a → s.stdout = [] → ∃ t, step s = .next t ∧ t.phase = .idle ∧
    t.finished = s.finished ++ [{
      stdout := a ++ ascii [':', ' ', 'P', 'G', 'D', '='] ++ dec s.out.pgd.toNat
        ++ ascii [',', ' ', 'P', 'U', 'D', '='] ++ dec s.out.pud.toNat
        ++ ascii [',', ' ', 'P', 'M', 'D', '='] ++ dec s.out.pmd.toNat
        ++ ascii [',', ' ', 'P', 'T', 'D', '='] ++ dec s.out.ptd.toNat
        ++ ascii [',', ' ', 'd', 'a', 't', 'a', '='] ++ dec s.out.data.toNat ++ [0x0A#8]
      exitCode := 0 }] ∧
    t.stderr = s.stderr ∧ t.vaI = s.vaI ∧ t.out = s.out ∧ t.pending = s.pending) ∧
  (∀ (s : State) (a : Text), s.Inv → s.phase = .evaluated a → ∃ n t, hexValue? a = some n ∧ step s = .next t ∧
    t.finished = s.finished ++ [{ stdout := resultLine a (decompose (portWord n)), exitCode := 0 }])

/-- The output line determines the result (R80, R81). MODEL'S PRESUMPTION: the byte codes of the line are log entry 10
(PRESUMED). -/
def Obligations.OutputLineLosesNothing : Prop :=
  ∀ (a : Text) (r r' : Result), resultLine a r = resultLine a r' → r = r'

/-- UsageError: usage message, exit code 1, no decomposition (R89, spec/92_eei_decisions.md D18). MODEL'S CHOICE: the bytes
with line feed 0AH are log entry 10 (PRESUMED), standard error empty because streams are cleared at the start is log entry
13, and the single step is log entry 5 (both DESIGN CHOICE); the message, the exit code and the absence of a decomposition
are R89 and D18. That outputs which are open (va_i not driven or not settled) keep the value shown, with no fresh draw, is
log entry 16 (DESIGN CHOICE, unsafe). -/
def Obligations.UsageErrorEffects : Prop :=
  ∀ (s : State) (p : Text) (rest : List Invocation), s.phase = .idle → s.pending = { programName := p, args := [] } :: rest →
    ∃ t, step s = .next t ∧ t.phase = .idle ∧ t.pending = rest ∧ t.stderr = [] ∧
      t.finished = s.finished ++ [{
        stdout := ascii ['u', 's', 'a', 'g', 'e', ':', ' '] ++ p
          ++ ascii [' ', '0', 'x', '[', 'a', 'd', 'd', 'r', 'e', 's', 's', ']'] ++ [0x0A#8]
        exitCode := 1 }] ∧
      t.vaI = s.vaI ∧ t.settleLeft = s.settleLeft ∧ t.out = s.out ∧ t.freeCount = s.freeCount

/-- ParseError: nothing on standard output, a diagnostic naming the input, a non-zero exit (R86, R88, R90,
spec/92_eei_decisions.md D15). MODEL'S CHOICE: that the diagnostic holds the bad input's bytes unchanged is log entry 7
(DEDUCED, unsafe); the empty standard output is D15's choice, log entry 7; the exit code as a natural number is log entry 6,
the single step log entry 5, cleared streams log entry 13 (DESIGN CHOICE), and the byte codes behind HexText log entry 10
(PRESUMED). That outputs which are open (va_i not driven or not settled) keep the value shown, with no fresh draw, is log
entry 16 (DESIGN CHOICE, unsafe). -/
def Obligations.ParseErrorEffects : Prop :=
  Config.parseErrorExit ≠ 0 ∧
  ∀ (s : State) (p a : Text) (more : List Text) (rest : List Invocation), s.phase = .idle →
    s.pending = { programName := p, args := a :: more } :: rest → ¬ HexText a →
    ∃ t, step s = .next t ∧ t.phase = .idle ∧ t.pending = rest ∧ a <:+: t.stderr ∧
      t.finished = s.finished ++ [{ stdout := [], exitCode := Config.parseErrorExit }] ∧
      t.vaI = s.vaI ∧ t.settleLeft = s.settleLeft ∧ t.out = s.out ∧ t.freeCount = s.freeCount

/-- Arguments after the first, and the program name, do not affect a parsed invocation (R73, R85, spec/92_eei_decisions.md
D16). That args[0] is the address is D16, the spec's own choice; that the program name plays no part in a parsed invocation
follows from R85. -/
def Obligations.ExtraArgumentsAreIgnored : Prop :=
  ∀ (p q a : Text) (more : List Text),
    invoke { programName := p, args := a :: more } = invoke { programName := q, args := [a] }

/-- Exit code 0 exactly on success, and what is printed in each case (R72, R74, R82, R88, R91). MODEL'S CHOICE: the empty
standard output is log entry 7, following R88 and D15, exit codes as natural numbers are log entry 6 (DESIGN CHOICE), and the
byte codes are log entry 10 (PRESUMED). -/
def Obligations.ExitCodeZeroMeansResultLine : Prop :=
  ∀ inv : Invocation,
    ((invoke inv).exitCode = 0 ↔ ∃ a more, inv.args = a :: more ∧ HexText a) ∧
    (∀ a more, inv.args = a :: more → HexText a → ∃ va, (invoke inv).stdout = resultLine a (decompose va)) ∧
    (∀ a more, inv.args = a :: more → ¬ HexText a → (invoke inv).stdout = []) ∧
    (inv.args = [] → (invoke inv).stdout = usageMessage inv.programName ∧ (invoke inv).exitCode = 1)

/-- The machine's steps carry out the invocation relation (R85, R86, R91, R104). MODEL'S CHOICE: the queue, the phases and
the bound of three steps are log entry 5 (DESIGN CHOICE); standard output standing in State after the end is log entry 13
(DESIGN CHOICE). -/
def Obligations.StepsRefineTheInvocationRelation : Prop :=
  ∀ (s : State) (inv : Invocation) (rest : List Invocation), s.phase = .idle → s.pending = inv :: rest →
    ∃ k t, k ≤ 3 ∧ Sys2Proof.core.run k s = .next t ∧ t.phase = .idle ∧ t.pending = rest ∧
      t.finished = s.finished ++ [invoke inv] ∧ t.stdout = (invoke inv).stdout

/-- A queue of invocations is served in order, each as the invocation relation gives it (R84, R85, R104). MODEL'S CHOICE: the
queue served oldest first and the bound of three steps for each invocation are log entry 5 (DESIGN CHOICE). -/
def Obligations.EveryQueueIsServedInOrder : Prop :=
  ∀ s : State, s.phase = .idle → ∃ k t, k ≤ 3 * s.pending.length ∧ Sys2Proof.core.run k s = .next t ∧
    t.phase = .idle ∧ t.pending = [] ∧ t.finished = s.finished ++ s.pending.map invoke

/-- Nothing carries over from one invocation to the next (R84, R104, R106). MODEL'S CHOICE: the queue and the equal step
counts are log entry 5 (DESIGN CHOICE). -/
def Obligations.InvocationsAreIndependentOfHistory : Prop :=
  ∀ s s' : State, s.phase = .idle → s'.phase = .idle → s.pending = s'.pending →
    ∃ k t t' new, Sys2Proof.core.run k s = .next t ∧ Sys2Proof.core.run k s' = .next t' ∧
      t.pending = [] ∧ t'.pending = [] ∧ new.length = s.pending.length ∧
      t.finished = s.finished ++ new ∧ t'.finished = s'.finished ++ new

/-- No partial output: a step writes all of an observation or nothing (R83, R92). MODEL'S CHOICE: the steps of an invocation
are log entry 5, and streams cleared for a fresh invocation are log entry 13 (both DESIGN CHOICE). -/
def Obligations.NoStepLeavesPartialOutput : Prop :=
  ∀ s t : State, s.Inv → step s = .next t →
    (t.finished = s.finished ∧ (t.stdout = s.stdout ∨ t.stdout = [])) ∨
    (∃ inv, t.finished = s.finished ++ [invoke inv] ∧ t.stdout = (invoke inv).stdout)

/-- On a platform an instance's step touches no other instance (R38, R99). MODEL'S CHOICE: the platform as a list of states
with one numbered instance moving at a time is log entry 12 (DESIGN CHOICE); R99 gives instances no identifiers and says that
they share nothing. That open outputs of the other instances keep the value shown is log entry 16 (DESIGN CHOICE, unsafe). -/
def Obligations.PlatformInstancesShareNothing : Prop :=
  ∀ (l : List State) (k : Nat), ∃ l', platformStep l k = .next l' ∧ l'.length = l.length ∧
    (∀ j, j ≠ k → l'[j]? = l[j]?) ∧ (∀ s, l[k]? = some s → ∃ t, step s = .next t ∧ l'[k]? = some t)
end

