-- ==== Sys2Proof/Laws/Operands.lean ====
section
/-! SUPPORT. What each field of DECOMPOSE's function is: one masked value of the steps, truncated to its port. -/

namespace Sys2Proof.Machine

theorem decompose_pgd (va : U64) : (decompose va).pgd = (stepOffsets va).pgdOffset.setWidth 9 := rfl
theorem decompose_pud (va : U64) : (decompose va).pud = (stepOffsets va).pudOffset.setWidth 9 := rfl
theorem decompose_pmd (va : U64) : (decompose va).pmd = (stepOffsets va).pmdOffset.setWidth 9 := rfl
theorem decompose_ptd (va : U64) : (decompose va).ptd = (stepOffsets va).ptdOffset.setWidth 9 := rfl
theorem decompose_data (va : U64) : (decompose va).data = (stepOffsets va).dataOffset.setWidth 12 := rfl

end Sys2Proof.Machine
end

