-- ==== Sys2Proof/Laws/State.lean ====
section
/-! SUPPORT. One lemma per field per update of the state, each true by rfl. -/

namespace Sys2Proof.Machine

@[simp] theorem State.evaluate_vaI (va : U64) (s : State) : (s.evaluate va).vaI = some va := rfl
@[simp] theorem State.evaluate_settleLeft (va : U64) (s : State) : (s.evaluate va).settleLeft = 0 := rfl
@[simp] theorem State.evaluate_out (va : U64) (s : State) : (s.evaluate va).out = decompose va := rfl
@[simp] theorem State.evaluate_phase (va : U64) (s : State) : (s.evaluate va).phase = s.phase := rfl
@[simp] theorem State.evaluate_stdout (va : U64) (s : State) : (s.evaluate va).stdout = s.stdout := rfl
@[simp] theorem State.evaluate_stderr (va : U64) (s : State) : (s.evaluate va).stderr = s.stderr := rfl
@[simp] theorem State.evaluate_pending (va : U64) (s : State) : (s.evaluate va).pending = s.pending := rfl
@[simp] theorem State.evaluate_finished (va : U64) (s : State) : (s.evaluate va).finished = s.finished := rfl
@[simp] theorem State.evaluate_freeCount (va : U64) (s : State) : (s.evaluate va).freeCount = s.freeCount := rfl

@[simp] theorem State.showOpenValue_vaI (s : State) : (s.showOpenValue).vaI = s.vaI := rfl
@[simp] theorem State.showOpenValue_settleLeft (s : State) : (s.showOpenValue).settleLeft = s.settleLeft := rfl
@[simp] theorem State.showOpenValue_out (s : State) : (s.showOpenValue).out = Result.ofBits (Config.openPortBits s.freeCount) := rfl
@[simp] theorem State.showOpenValue_phase (s : State) : (s.showOpenValue).phase = s.phase := rfl
@[simp] theorem State.showOpenValue_stdout (s : State) : (s.showOpenValue).stdout = s.stdout := rfl
@[simp] theorem State.showOpenValue_stderr (s : State) : (s.showOpenValue).stderr = s.stderr := rfl
@[simp] theorem State.showOpenValue_pending (s : State) : (s.showOpenValue).pending = s.pending := rfl
@[simp] theorem State.showOpenValue_finished (s : State) : (s.showOpenValue).finished = s.finished := rfl
@[simp] theorem State.showOpenValue_freeCount (s : State) : (s.showOpenValue).freeCount = s.freeCount + 1 := rfl

@[simp] theorem State.passTime_vaI (d : Nat) (s : State) : (s.passTime d).vaI = s.vaI := rfl
@[simp] theorem State.passTime_settleLeft (d : Nat) (s : State) : (s.passTime d).settleLeft = s.settleLeft - d := rfl
@[simp] theorem State.passTime_out (d : Nat) (s : State) : (s.passTime d).out = s.out := rfl
@[simp] theorem State.passTime_phase (d : Nat) (s : State) : (s.passTime d).phase = s.phase := rfl
@[simp] theorem State.passTime_stdout (d : Nat) (s : State) : (s.passTime d).stdout = s.stdout := rfl
@[simp] theorem State.passTime_stderr (d : Nat) (s : State) : (s.passTime d).stderr = s.stderr := rfl
@[simp] theorem State.passTime_pending (d : Nat) (s : State) : (s.passTime d).pending = s.pending := rfl
@[simp] theorem State.passTime_finished (d : Nat) (s : State) : (s.passTime d).finished = s.finished := rfl
@[simp] theorem State.passTime_freeCount (d : Nat) (s : State) : (s.passTime d).freeCount = s.freeCount := rfl

@[simp] theorem State.enter_vaI (p : Phase) (s : State) : (s.enter p).vaI = s.vaI := rfl
@[simp] theorem State.enter_settleLeft (p : Phase) (s : State) : (s.enter p).settleLeft = s.settleLeft := rfl
@[simp] theorem State.enter_out (p : Phase) (s : State) : (s.enter p).out = s.out := rfl
@[simp] theorem State.enter_phase (p : Phase) (s : State) : (s.enter p).phase = p := rfl
@[simp] theorem State.enter_stdout (p : Phase) (s : State) : (s.enter p).stdout = s.stdout := rfl
@[simp] theorem State.enter_stderr (p : Phase) (s : State) : (s.enter p).stderr = s.stderr := rfl
@[simp] theorem State.enter_pending (p : Phase) (s : State) : (s.enter p).pending = s.pending := rfl
@[simp] theorem State.enter_finished (p : Phase) (s : State) : (s.enter p).finished = s.finished := rfl
@[simp] theorem State.enter_freeCount (p : Phase) (s : State) : (s.enter p).freeCount = s.freeCount := rfl

@[simp] theorem State.emit_vaI (t : Text) (s : State) : (s.emit t).vaI = s.vaI := rfl
@[simp] theorem State.emit_settleLeft (t : Text) (s : State) : (s.emit t).settleLeft = s.settleLeft := rfl
@[simp] theorem State.emit_out (t : Text) (s : State) : (s.emit t).out = s.out := rfl
@[simp] theorem State.emit_phase (t : Text) (s : State) : (s.emit t).phase = s.phase := rfl
@[simp] theorem State.emit_stdout (t : Text) (s : State) : (s.emit t).stdout = s.stdout ++ t := rfl
@[simp] theorem State.emit_stderr (t : Text) (s : State) : (s.emit t).stderr = s.stderr := rfl
@[simp] theorem State.emit_pending (t : Text) (s : State) : (s.emit t).pending = s.pending := rfl
@[simp] theorem State.emit_finished (t : Text) (s : State) : (s.emit t).finished = s.finished := rfl
@[simp] theorem State.emit_freeCount (t : Text) (s : State) : (s.emit t).freeCount = s.freeCount := rfl

@[simp] theorem State.emitError_vaI (t : Text) (s : State) : (s.emitError t).vaI = s.vaI := rfl
@[simp] theorem State.emitError_settleLeft (t : Text) (s : State) : (s.emitError t).settleLeft = s.settleLeft := rfl
@[simp] theorem State.emitError_out (t : Text) (s : State) : (s.emitError t).out = s.out := rfl
@[simp] theorem State.emitError_phase (t : Text) (s : State) : (s.emitError t).phase = s.phase := rfl
@[simp] theorem State.emitError_stdout (t : Text) (s : State) : (s.emitError t).stdout = s.stdout := rfl
@[simp] theorem State.emitError_stderr (t : Text) (s : State) : (s.emitError t).stderr = s.stderr ++ t := rfl
@[simp] theorem State.emitError_pending (t : Text) (s : State) : (s.emitError t).pending = s.pending := rfl
@[simp] theorem State.emitError_finished (t : Text) (s : State) : (s.emitError t).finished = s.finished := rfl
@[simp] theorem State.emitError_freeCount (t : Text) (s : State) : (s.emitError t).freeCount = s.freeCount := rfl

@[simp] theorem State.exitWith_vaI (c : Nat) (s : State) : (s.exitWith c).vaI = s.vaI := rfl
@[simp] theorem State.exitWith_settleLeft (c : Nat) (s : State) : (s.exitWith c).settleLeft = s.settleLeft := rfl
@[simp] theorem State.exitWith_out (c : Nat) (s : State) : (s.exitWith c).out = s.out := rfl
@[simp] theorem State.exitWith_phase (c : Nat) (s : State) : (s.exitWith c).phase = .idle := rfl
@[simp] theorem State.exitWith_stdout (c : Nat) (s : State) : (s.exitWith c).stdout = s.stdout := rfl
@[simp] theorem State.exitWith_stderr (c : Nat) (s : State) : (s.exitWith c).stderr = s.stderr := rfl
@[simp] theorem State.exitWith_pending (c : Nat) (s : State) : (s.exitWith c).pending = s.pending := rfl
@[simp] theorem State.exitWith_finished (c : Nat) (s : State) : (s.exitWith c).finished = s.finished ++ [Observation.mk s.stdout c] := rfl
@[simp] theorem State.exitWith_freeCount (c : Nat) (s : State) : (s.exitWith c).freeCount = s.freeCount := rfl

@[simp] theorem State.hostError_vaI (e : HostError) (s : State) : (s.hostError e).vaI = s.vaI := rfl
@[simp] theorem State.hostError_settleLeft (e : HostError) (s : State) : (s.hostError e).settleLeft = s.settleLeft := rfl
@[simp] theorem State.hostError_out (e : HostError) (s : State) : (s.hostError e).out = s.out := rfl
@[simp] theorem State.hostError_phase (e : HostError) (s : State) : (s.hostError e).phase = .idle := rfl
@[simp] theorem State.hostError_stdout (e : HostError) (s : State) : (s.hostError e).stdout = s.stdout ++ e.stdout := rfl
@[simp] theorem State.hostError_stderr (e : HostError) (s : State) : (s.hostError e).stderr = s.stderr ++ e.stderr := rfl
@[simp] theorem State.hostError_pending (e : HostError) (s : State) : (s.hostError e).pending = s.pending := rfl
@[simp] theorem State.hostError_finished (e : HostError) (s : State) : (s.hostError e).finished = s.finished ++ [Observation.mk (s.stdout ++ e.stdout) e.exitCode] := rfl
@[simp] theorem State.hostError_freeCount (e : HostError) (s : State) : (s.hostError e).freeCount = s.freeCount := rfl

@[simp] theorem State.beginInvocation_vaI (rest : List Invocation) (s : State) : (s.beginInvocation rest).vaI = s.vaI := rfl
@[simp] theorem State.beginInvocation_settleLeft (rest : List Invocation) (s : State) : (s.beginInvocation rest).settleLeft = s.settleLeft := rfl
@[simp] theorem State.beginInvocation_out (rest : List Invocation) (s : State) : (s.beginInvocation rest).out = s.out := rfl
@[simp] theorem State.beginInvocation_phase (rest : List Invocation) (s : State) : (s.beginInvocation rest).phase = s.phase := rfl
@[simp] theorem State.beginInvocation_stdout (rest : List Invocation) (s : State) : (s.beginInvocation rest).stdout = [] := rfl
@[simp] theorem State.beginInvocation_stderr (rest : List Invocation) (s : State) : (s.beginInvocation rest).stderr = [] := rfl
@[simp] theorem State.beginInvocation_pending (rest : List Invocation) (s : State) : (s.beginInvocation rest).pending = rest := rfl
@[simp] theorem State.beginInvocation_finished (rest : List Invocation) (s : State) : (s.beginInvocation rest).finished = s.finished := rfl
@[simp] theorem State.beginInvocation_freeCount (rest : List Invocation) (s : State) : (s.beginInvocation rest).freeCount = s.freeCount := rfl

end Sys2Proof.Machine
end

