-- ==== Sys2Proof/Laws/Ops.lean ====
section
/-! SUPPORT. One lemma per shared operation that says everything it can do. -/

namespace Sys2Proof.Machine

/-- Presenting the value already there changes nothing. -/
theorem State.present_same (va : U64) (s : State) (h : s.vaI = some va) : s.present va = s := by
  simp [State.present, h]

/-- Presenting a new value starts the settling interval and touches nothing but the ports and the free-value counter. -/
theorem State.present_new (va : U64) (s : State) (h : s.vaI ≠ some va) :
    s.present va =
      { s with
        vaI := some va
        settleLeft := Config.tSettle
        out := if Config.tSettle = 0 then decompose va else Result.ofBits (Config.openPortBits s.freeCount)
        freeCount := s.freeCount + 1 } := by
  simp [State.present, h]

@[simp] theorem State.present_vaI (va : U64) (s : State) : (s.present va).vaI = some va := by
  by_cases h : s.vaI = some va
  · rw [State.present_same va s h, h]
  · rw [State.present_new va s h]

@[simp] theorem State.present_phase (va : U64) (s : State) : (s.present va).phase = s.phase := by
  unfold State.present; split <;> rfl

@[simp] theorem State.present_stdout (va : U64) (s : State) : (s.present va).stdout = s.stdout := by
  unfold State.present; split <;> rfl

@[simp] theorem State.present_stderr (va : U64) (s : State) : (s.present va).stderr = s.stderr := by
  unfold State.present; split <;> rfl

@[simp] theorem State.present_pending (va : U64) (s : State) : (s.present va).pending = s.pending := by
  unfold State.present; split <;> rfl

@[simp] theorem State.present_finished (va : U64) (s : State) : (s.present va).finished = s.finished := by
  unfold State.present; split <;> rfl

/-- Holding an input that is not driven shows an open value. -/
theorem State.hold_undriven (d : Nat) (s : State) (h : s.vaI = none) : s.hold d = s.showOpenValue := by
  simp [State.hold, h]

/-- Holding a driven input for what is left of the interval evaluates the block. -/
theorem State.hold_long (d : Nat) (s : State) (va : U64) (h : s.vaI = some va) (hd : s.settleLeft ≤ d) :
    s.hold d = s.evaluate va := by
  simp [State.hold, h, hd]

/-- Holding a driven input for less than that shows an open value and shortens what is left. -/
theorem State.hold_short (d : Nat) (s : State) (va : U64) (h : s.vaI = some va) (hd : d < s.settleLeft) :
    s.hold d = s.showOpenValue.passTime d := by
  simp [State.hold, h, Nat.not_le.mpr hd]

/-- A read has a meaning exactly on a driven and settled input. -/
theorem State.readOutputs_of_settled (s : State) (va : U64) (h : s.vaI = some va) (h0 : s.settleLeft = 0) :
    s.readOutputs = some s.out := by
  simp [State.readOutputs, State.settled, h, h0]

theorem State.readOutputs_of_undriven (s : State) (h : s.vaI = none) : s.readOutputs = none := by
  simp [State.readOutputs, State.settled, h]

theorem State.readOutputs_of_unsettled (s : State) (h : s.settleLeft ≠ 0) : s.readOutputs = none := by
  simp [State.readOutputs, State.settled, h]

/-- What the checks of an invocation can answer. -/
theorem checkArguments_cases (inv : Invocation) :
    (inv.args = [] ∧ checkArguments inv = .error (.usageError inv.programName)) ∨
    (∃ t rest, inv.args = t :: rest ∧ hexValue? t = none ∧ checkArguments inv = .error (.parseError t)) ∨
    (∃ t rest n, inv.args = t :: rest ∧ hexValue? t = some n ∧ checkArguments inv = .ok (t, n)) := by
  unfold checkArguments
  rcases inv.args with - | ⟨t, rest⟩
  · exact .inl ⟨rfl, rfl⟩
  · rcases h : hexValue? t with - | n
    · exact .inr (.inl ⟨t, rest, rfl, h, by simp [h]⟩)
    · exact .inr (.inr ⟨t, rest, n, rfl, h, by simp [h]⟩)

/-- The adapter's first move, for each answer of the checks. -/
theorem startInvocation_error (inv : Invocation) (e : HostError) (s : State) (h : checkArguments inv = .error e) :
    startInvocation inv s = s.hostError e := by
  simp [startInvocation, h]

theorem startInvocation_ok (inv : Invocation) (t : Text) (n : Nat) (s : State) (h : checkArguments inv = .ok (t, n)) :
    startInvocation inv s = (s.present (portWord n)).enter (.presented t) := by
  simp [startInvocation, h]

/-- Every word selects DECOMPOSE. -/
@[simp] theorem decode_word (w : U64) : decode [w] = .ok (.decompose w) := by
  simp [decode, decomposeMask, decomposeMatch]

end Sys2Proof.Machine
end

