-- ==== Sys2Proof/Laws/PerInstr.lean ====
section
/-! SUPPORT. The statements made per instruction: one lemma per constructor of Instr. -/

namespace Sys2Proof.Laws

/-- Every instruction is one 64-bit word and is admitted with every operand (R49, R51). -/
def OneWord.Statement (i : Instr) : Prop :=
  i.wellFormed = true ∧ (encode i).length = 1

theorem OneWord.decompose (va : U64) : OneWord.Statement (.decompose va) :=
  ⟨rfl, rfl⟩

end Sys2Proof.Laws
end

