-- ==== Sys2Proof/Laws/Step.lean ====
section
/-! SUPPORT. What the block's move and a step can do, said once. -/

namespace Sys2Proof.Machine

theorem step_eq_systemStep (s : State) : step s = systemStep s := rfl

/-- A run of one step more begins with that step, for any machine. -/
theorem core_run_succ (M : Host.Core) (k : Nat) (s t : M.State) (h : M.step s = .next t) : M.run (k + 1) s = M.run k t := by
  rw [Host.Core.run, h]

/-- The block's move always answers a next state. -/
theorem blockStep_cases (s : State) :
    (s.vaI = none ∧ blockStep s = .next s.showOpenValue) ∨
    (∃ w, s.vaI = some w ∧ blockStep s = .next (s.evaluate w)) := by
  unfold blockStep
  rcases h : s.vaI with - | w
  · exact .inl ⟨rfl, rfl⟩
  · exact .inr ⟨w, rfl, by simp [exec, execDecompose]⟩

/-- What a step from `s` to `t` can be: the block's move alone, an invocation's start, the block's move within an invocation, or
an invocation's end. -/
theorem step_cases (s : State) :
    ∃ t, step s = .next t ∧
      ((s.phase = .idle ∧ s.pending = [] ∧ s.vaI = none ∧ t = s.showOpenValue) ∨
       (∃ w, s.phase = .idle ∧ s.pending = [] ∧ s.vaI = some w ∧ t = s.evaluate w) ∨
       (∃ inv rest, s.phase = .idle ∧ s.pending = inv :: rest ∧ t = startInvocation inv (s.beginInvocation rest)) ∨
       (∃ a, s.phase = .presented a ∧ s.vaI = none ∧ t = s.showOpenValue.enter (.evaluated a)) ∨
       (∃ a w, s.phase = .presented a ∧ s.vaI = some w ∧ t = (s.evaluate w).enter (.evaluated a)) ∨
       (∃ a, s.phase = .evaluated a ∧ t = finishInvocation a s)) := by
  unfold step systemStep blockStepFor
  rcases hp : s.phase with - | a | a
  · rcases hq : s.pending with - | ⟨inv, rest⟩
    · rcases blockStep_cases s with ⟨hv, hb⟩ | ⟨w, hv, hb⟩
      · exact ⟨_, hb, .inl ⟨rfl, rfl, hv, rfl⟩⟩
      · exact ⟨_, hb, .inr (.inl ⟨w, rfl, rfl, hv, rfl⟩)⟩
    · exact ⟨_, rfl, .inr (.inr (.inl ⟨inv, rest, rfl, rfl, rfl⟩))⟩
  · rcases blockStep_cases s with ⟨hv, hb⟩ | ⟨w, hv, hb⟩
    · exact ⟨s.showOpenValue.enter (.evaluated a), by simp [hb], .inr (.inr (.inr (.inl ⟨a, rfl, hv, rfl⟩)))⟩
    · exact ⟨(s.evaluate w).enter (.evaluated a), by simp [hb], .inr (.inr (.inr (.inr (.inl ⟨a, w, rfl, hv, rfl⟩))))⟩
  · exact ⟨_, rfl, .inr (.inr (.inr (.inr (.inr ⟨a, rfl, rfl⟩))))⟩

end Sys2Proof.Machine
end

