-- ==== Sys2Proof/Tests/Slice0.lean ====
section
/-! SUPPORT. Tests: the vectors of spec/95_test_vectors.md, the words of the spec's encoding, the smoke test of WellFormed, and
for each statement with hypotheses a concrete state and operands that meet them. -/

namespace Sys2Proof.Tests

open Sys2Proof.Machine

/-- A settled, idle state with `va` on the input port and these invocations waiting. -/
def ready (va : U64) (q : List Invocation) : State :=
  { vaI := some va, settleLeft := 0, out := decompose va, phase := .idle, stdout := [], stderr := [], pending := q,
    finished := [], freeCount := 7 }

/-- An invocation of the program `P` with these arguments. -/
def call (args : List (List Char)) : Invocation := { programName := ascii ['P'], args := args.map ascii }

/-- The text `0x1fee000` of the spec's example E3. -/
def sample : List Char := ['0', 'x', '1', 'f', 'e', 'e', '0', '0', '0']

/-- Its output line in the spec's vectors, after the address text. -/
def sampleTail : List Char :=
  [':', ' ', 'P', 'G', 'D', '=', '0', ',', ' ', 'P', 'U', 'D', '=', '0', ',', ' ', 'P', 'M', 'D', '=', '1', '5', ',', ' ',
   'P', 'T', 'D', '=', '4', '9', '4', ',', ' ', 'd', 'a', 't', 'a', '=', '0', '\n']

/-! WellFormed refuses what is ill-formed (R9, R6): a five-level layout, a huge-page layout, a wider offset. -/

theorem test_wellFormed_layouts :
    Config.layout.wellFormed = true ∧
    (PagingLayout.wellFormed { Config.layout with levels := Config.layout.levels ++ [(.pgd, 9)] }) = false ∧
    (PagingLayout.wellFormed { addrWidth := 64, offsetWidth := 21, levels := [(.pmd, 9), (.pud, 9), (.pgd, 9)] }) = false ∧
    (PagingLayout.wellFormed { Config.layout with addrWidth := 32 }) = false := by decide

/-! Decoding: words written field by field, IGN PGD PUD PMD PTD DATA, as 95_test_vectors.md section 5 writes them. -/

theorem test_decode_p1_step1 :
    decode [(0b1111111111111111#16 ++ (0b111111111#9 ++ (0b111111110#9 ++ (0b000001000#9 ++ (0b000000000#9 ++ 0b000000000000#12)))) : U64)]
      = .ok (.decompose 0xFFFFFFFF81000000#64) := by rfl

theorem test_decode_p2_step5 :
    decode [(0b0000000000000000#16 ++ (0b000000000#9 ++ (0b000000000#9 ++ (0b000001111#9 ++ (0b111101110#9 ++ 0b000000000000#12)))) : U64)]
      = .ok (.decompose 0x0000000001FEE000#64) := by rfl

theorem test_decode_refuses_none_and_batch :
    decode [] = .error .noWord ∧ decode [0x1#64, 0x1000#64] = .error .batch := ⟨rfl, rfl⟩

theorem test_decodeTableWord :
    decodeTableWord 64 0xDEADBEEFCAFEBABE = some (.decompose 0xDEADBEEFCAFEBABE#64) ∧ decodeTableWord 65 (2 ^ 64) = none := by decide

theorem test_unpack_mixed :
    unpackVA64 0xDEADBEEFCAFEBABE#64
      = { ign := 0xDEAD#16, pgd := 0x17D#9, pud := 0x1BF#9, pmd := 0x057#9, ptd := 0x1EB#9, data := 0xABE#12 } := by decide

/-! DECOMPOSE: section 2's vectors, and one step after reset. -/

theorem test_decompose_vectors :
    ∀ p ∈ ([ (0x0000000000000000#64, [0, 0, 0, 0, 0]), (0x0000000000000001#64, [0, 0, 0, 0, 1]),
             (0x0000000000000FFF#64, [0, 0, 0, 0, 4095]), (0x0000800000000000#64, [256, 0, 0, 0, 0]),
             (0x0001000000000000#64, [0, 0, 0, 0, 0]), (0x8000000000000000#64, [0, 0, 0, 0, 0]),
             (0x0000FFFFFFFFFFFF#64, [511, 511, 511, 511, 4095]), (0xFFFFFFFFFFFFFFFF#64, [511, 511, 511, 511, 4095]),
             (0x0000000001FEE000#64, [0, 0, 15, 494, 0]), (0x0000123456789ABC#64, [36, 209, 179, 393, 2748]),
             (0xDEADBEEFCAFEBABE#64, [381, 447, 87, 491, 2750]), (0xFFFFFFFF81000000#64, [511, 510, 8, 0, 0]),
             (0xFFFF888000000000#64, [273, 0, 0, 0, 0]), (0x0000FFFFFFFFF000#64, [511, 511, 511, 511, 0])
           ] : List (U64 × List Nat)), (decompose p.1).canonicalOrder = p.2 := by decide

theorem test_step_first_after_reset :
    ∃ t, step (State.reset.withFetchWord 64 0x0000123456789ABC) = .next t ∧
      t.readOutputs = some { pgd := 36#9, pud := 209#9, pmd := 179#9, ptd := 393#9, data := 2748#12 } :=
  ⟨_, rfl, by decide⟩

/-! The host adapter: section 4's vectors, one invocation each. -/

theorem test_host_usage :
    invoke (call []) =
      { stdout := ascii ['u', 's', 'a', 'g', 'e', ':', ' ', 'P', ' ', '0', 'x', '[', 'a', 'd', 'd', 'r', 'e', 's', 's', ']', '\n'],
        exitCode := 1 } := by decide

theorem test_host_success_H2_H15 :
    invoke (call [sample]) = { stdout := ascii (sample ++ sampleTail), exitCode := 0 } ∧
    invoke (call [sample, ['j', 'u', 'n', 'k']]) = { stdout := ascii (sample ++ sampleTail), exitCode := 0 } := by decide

theorem test_host_success_H4_H17 :
    ∀ t ∈ [ ['0', 'X', '1', 'F', 'E', 'E', '0', '0', '0'],
            ['0', 'x', 'F', 'F', 'F', 'F', '0', '0', '0', '0', '0', '0', '0', '1', 'f', 'e', 'e', '0', '0', '0'] ],
      invoke (call [t]) = { stdout := ascii (t ++ sampleTail), exitCode := 0 } := by decide

theorem test_host_malformed_H6_to_H14 :
    ∀ t ∈ [ ['x', 'y', 'z'], ['0', 'x'], [], ['-', '0', 'x', '1', '0'], ['+', '0', 'x', '1', '0'], [' ', '0', 'x', '1', '0'],
            ['0', 'x', '1', '0', ' '], ['0', 'x', '1', '_', '0'], ['0', 'x', 'g'] ],
      checkArguments (call [t]) = .error (.parseError (ascii t)) := by
  decide +revert

/-! Witnesses: each meets every hypothesis of the statement it names. -/

theorem witness_AddressTextRoundTrip : (Instr.decompose 0xFFFFFFFFFFFFFFFF#64).wellFormed = true := rfl

theorem witness_ResultReconstructsLowAddresses : (0x0000FFFFFFFFFFFF#64 : U64).toNat ≤ 2 ^ 48 - 1 := by decide

theorem witness_HighBitsAreDiscarded :
    (0x0000BEEFCAFEBABE#64 : U64).extractLsb' 0 48 = (0xDEADBEEFCAFEBABE#64 : U64).extractLsb' 0 48 := by decide

theorem witness_ResultDeterminesLowBits :
    ∃ t t', exec (.decompose 0x0001000000000001#64) (ready 0 []) = .next t ∧ exec (.decompose 0x1#64) State.reset = .next t' ∧
      t.out = t'.out := ⟨_, _, rfl, rfl, by decide⟩

theorem witness_LayoutExtractorIsDecompose :
    ({ addrWidth := 64, offsetWidth := 21, levels := [(.pmd, 9), (.pud, 9), (.pgd, 9)] } : PagingLayout) ≠ Config.layout := by decide

theorem witness_StepRunsTheDecodedInstruction_blockTurn :
    (ready 0x1000#64 []).vaI = some 0x1000#64 ∧ decode [0x1000#64] = .ok (.decompose 0x1000#64) ∧ (ready 0x1000#64 []).BlockTurn :=
  ⟨rfl, rfl, rfl, rfl⟩

theorem witness_StepRunsTheDecodedInstruction_invocation :
    ((ready 0x1000#64 []).enter (.presented [0x30#8])).vaI = some 0x1000#64 ∧
      decode [0x1000#64] = .ok (.decompose 0x1000#64) ∧
      ((ready 0x1000#64 []).enter (.presented [0x30#8])).phase = .presented [0x30#8] := ⟨rfl, rfl, rfl⟩

theorem witness_PlacedWordRunsNext : decodeTableWord 64 (2 ^ 64 - 1) = some (.decompose 0xFFFFFFFFFFFFFFFF#64) := by decide

theorem witness_BlockDependsOnInputAlone :
    let s := ready 0x5#64 []
    let s' : State := { ready 0x5#64 [] with settleLeft := 3, out := decompose 0#64, finished := [⟨[], 1⟩] }
    s.vaI = some 0x5#64 ∧ s'.vaI = some 0x5#64 ∧ s.BlockTurn ∧ s'.BlockTurn := ⟨rfl, rfl, ⟨rfl, rfl⟩, rfl, rfl⟩

theorem witness_EvaluationIsIdempotent :
    ({ ready 0x5#64 [] with settleLeft := 3 } : State).vaI = some 0x5#64 ∧
      ({ ready 0x5#64 [] with settleLeft := 3 } : State).BlockTurn := ⟨rfl, rfl, rfl⟩

theorem witness_UndrivenInputGivesNoResult : State.reset.vaI = none ∧ State.reset.BlockTurn := ⟨rfl, rfl, rfl⟩

/-- A state of the adapter's reading phase that has the invariant. -/
theorem ready_evaluated_inv : ((ready 0x1#64 []).enter (.evaluated [0x31#8])).Inv where
  outputs := by intro va h _; cases h; rfl
  interval := Nat.zero_le _
  presented := by intro t h; cases h
  evaluated := by intro t h; cases h; exact ⟨⟨1, by decide, by decide, rfl⟩, rfl⟩
  observed := by intro o h; cases h

theorem witness_EveryStepKeepsTheInvariant :
    ∃ t, ((ready 0x1#64 []).enter (.evaluated [0x31#8])).Inv ∧ step ((ready 0x1#64 []).enter (.evaluated [0x31#8])) = .next t :=
  ⟨_, ready_evaluated_inv, rfl⟩

theorem witness_NoStepLeavesPartialOutput :
    ∃ t, ((ready 0x1#64 []).enter (.evaluated [0x31#8])).Inv ∧ step ((ready 0x1#64 []).enter (.evaluated [0x31#8])) = .next t :=
  ⟨_, ready_evaluated_inv, rfl⟩

theorem witness_HostActionsKeepOutputsFollowing :
    (ready 0x5#64 []).OutputsFollow ∧ (ready 0x5#64 []).settleLeft ≤ Config.tSettle :=
  ⟨by intro va h _; cases h; rfl, Nat.zero_le _⟩

theorem witness_ReadsWaitForTheSettlingInterval_newValue : (ready 0x5#64 []).vaI ≠ some 0x6#64 := by decide

theorem witness_ReadsWaitForTheSettlingInterval_short :
    ({ ready 0x5#64 [] with settleLeft := 5 } : State).vaI = some 0x5#64 ∧ 4 < ({ ready 0x5#64 [] with settleLeft := 5 } : State).settleLeft := by
  decide

theorem witness_ReadsWaitForTheSettlingInterval_long :
    ({ ready 0x5#64 [] with settleLeft := 5 } : State).vaI = some 0x5#64 ∧ ({ ready 0x5#64 [] with settleLeft := 5 } : State).settleLeft ≤ 5 := by
  decide

theorem witness_ReadsWaitForTheSettlingInterval_sameValue_and_sum :
    ({ ready 0x5#64 [] with settleLeft := 5 } : State).vaI = some 0x5#64 ∧ 2 < 5 ∧ 5 ≤ 2 + 3 := by decide

theorem witness_PresentedValueIsEvaluatedNext : ({ ready 0x5#64 [] with settleLeft := 5 } : State).BlockTurn := ⟨rfl, rfl⟩

theorem witness_OnlyAnInvocationChangesTheInput :
    ∃ t, step (ready 0x5#64 [call [sample]]) = .next t ∧ t.vaI ≠ (ready 0x5#64 [call [sample]]).vaI :=
  ⟨_, rfl, by rw [startInvocation_ok _ (ascii sample) 33480704 _ (by decide)]; decide⟩

theorem witness_TextValueIsBaseSixteen :
    IsRadixMark (ascii ['0', 'X']) ∧ ascii ['f', 'F', '9'] ≠ [] ∧ ∀ c ∈ ascii ['f', 'F', '9'], IsHexDigit c := by
  unfold IsRadixMark IsHexDigit; decide

/-- The text `xyz` of the spec's example E5 is outside the grammar: its first byte is no digit, and no radix mark begins with it. -/
theorem xyz_not_hexText : ¬ HexText (ascii ['x', 'y', 'z']) := by
  rintro ⟨p, ds, h, hp, -, hd⟩
  have hx : ¬ IsHexDigit 0x78#8 := by unfold IsHexDigit; decide
  rcases hp with rfl | rfl | rfl
  · rw [List.nil_append] at h
    exact hx (hd _ (h ▸ by decide))
  · exact absurd (congrArg List.head? h) (by simp [ascii])
  · exact absurd (congrArg List.head? h) (by simp [ascii])

theorem witness_ForeignCharactersEndWithParseError_grammar : ¬ HexText (ascii ['x', 'y', 'z']) := xyz_not_hexText

theorem witness_ForeignCharactersEndWithParseError :
    0x5F#8 ∈ ascii ['1', '_', '0'] ∧ ¬ IsHexDigit 0x5F#8 ∧ (0x5F#8 : Byte) ≠ 0x78#8 ∧ (0x5F#8 : Byte) ≠ 0x58#8 := by
  unfold IsHexDigit; decide

theorem witness_EmptyTextsEndWithParseError :
    [] ∈ [[], ascii ['0', 'x'], ascii ['0', 'X']] ∧ ascii ['0', 'x'] ∈ [[], ascii ['0', 'x'], ascii ['0', 'X']] ∧
      ascii ['0', 'X'] ∈ [[], ascii ['0', 'x'], ascii ['0', 'X']] := by decide

theorem witness_ParsedValueIsReducedToThePort :
    let s := ready 0x5#64 [call [['1', '0', '0', '0', '0', '0', '0', '0', '0', '0', '0', '0', '0', '0', '0', '0', '0']]]
    s.phase = .idle ∧ (∃ a, s.pending = { programName := ascii ['P'], args := [a] } :: [] ∧ hexValue? a = some (2 ^ 64)) :=
  ⟨rfl, _, rfl, by decide⟩

theorem witness_SuccessWritesOneLineAndExitsZero :
    ((ready 0x1#64 []).enter (.evaluated [0x31#8])).phase = .evaluated [0x31#8] ∧
      ((ready 0x1#64 []).enter (.evaluated [0x31#8])).stdout = [] := ⟨rfl, rfl⟩

theorem witness_SuccessWritesOneLineAndExitsZero_invariant :
    ((ready 0x1#64 []).enter (.evaluated [0x31#8])).Inv ∧
      ((ready 0x1#64 []).enter (.evaluated [0x31#8])).phase = .evaluated [0x31#8] := ⟨ready_evaluated_inv, rfl⟩

theorem witness_OutputLineLosesNothing :
    resultLine (ascii ['0']) (decompose 0#64) = resultLine (ascii ['0']) (decompose 0x0001000000000000#64) := by decide

theorem witness_UsageErrorEffects :
    (ready 0x5#64 [call []]).phase = .idle ∧ (ready 0x5#64 [call []]).pending = { programName := ascii ['P'], args := [] } :: [] :=
  ⟨rfl, rfl⟩

theorem witness_ParseErrorEffects :
    (ready 0x5#64 [call [['x', 'y', 'z']]]).phase = .idle ∧
      (ready 0x5#64 [call [['x', 'y', 'z']]]).pending = { programName := ascii ['P'], args := ascii ['x', 'y', 'z'] :: [] } :: [] ∧
      ¬ HexText (ascii ['x', 'y', 'z']) := ⟨rfl, rfl, xyz_not_hexText⟩

theorem witness_ExitCodeZeroMeansResultLine_success :
    (call [['0']]).args = ascii ['0'] :: [] ∧ HexText (ascii ['0']) :=
  ⟨rfl, [], ascii ['0'], rfl, .inl rfl, by decide, by unfold IsHexDigit; decide⟩

theorem witness_ExitCodeZeroMeansResultLine_malformed :
    (call [['x', 'y', 'z']]).args = ascii ['x', 'y', 'z'] :: [] ∧ ¬ HexText (ascii ['x', 'y', 'z']) := ⟨rfl, xyz_not_hexText⟩

theorem witness_ExitCodeZeroMeansResultLine_usage : (call []).args = [] := rfl

theorem witness_StepsRefineTheInvocationRelation :
    (ready 0x5#64 [call [sample], call []]).phase = .idle ∧
      (ready 0x5#64 [call [sample], call []]).pending = call [sample] :: [call []] := ⟨rfl, rfl⟩

theorem witness_EveryQueueIsServedInOrder : (ready 0x5#64 [call [sample], call []]).phase = .idle := rfl

theorem witness_InvocationsAreIndependentOfHistory :
    (ready 0x5#64 [call [sample]]).phase = .idle ∧
      ({ State.reset with pending := [call [sample]] } : State).phase = .idle ∧
      (ready 0x5#64 [call [sample]]).pending = ({ State.reset with pending := [call [sample]] } : State).pending := ⟨rfl, rfl, rfl⟩

theorem witness_PlatformInstancesShareNothing :
    (0 : Nat) ≠ 1 ∧ [ready 0x5#64 [], State.reset][1]? = some State.reset := ⟨by decide, rfl⟩

end Sys2Proof.Tests
end

section
/-! PROOFS. The wired layout (spec/00_scope.md section 4) and the extractor over it. The one idea: a value under a mask of `w`
ones is below `2^w`, so truncating it to a port of `w` bits loses nothing, and the extractor's untruncated values are the ports'. -/

namespace Sys2Proof.Machine

/-! ### Masks of ones -/

/-- Masking with `w` ones takes the remainder by `2^w`. -/
theorem toNat_and_ones {w : Nat} (hw : w ≤ 64) (a : U64) :
    (a &&& BitVec.ofNat 64 (2 ^ w - 1)).toNat = a.toNat % 2 ^ w := by
  have hpow : 2 ^ w ≤ 2 ^ 64 := Nat.pow_le_pow_right (by decide) hw
  have hfits : 2 ^ w - 1 < 2 ^ 64 := by have := Nat.two_pow_pos w; omega
  rw [BitVec.toNat_and, BitVec.toNat_ofNat, Nat.mod_eq_of_lt hfits, Nat.and_two_pow_sub_one_eq_mod]

/-- Truncating to `w` bits keeps a value that `w` ones have masked (R55). -/
theorem toNat_setWidth_and_ones {w : Nat} (hw : w ≤ 64) (a : U64) :
    ((a &&& BitVec.ofNat 64 (2 ^ w - 1)).setWidth w).toNat = (a &&& BitVec.ofNat 64 (2 ^ w - 1)).toNat := by
  rw [BitVec.toNat_setWidth, toNat_and_ones hw, Nat.mod_mod]

/-! ### Each port carries the whole value of its step -/

theorem toNat_decompose_data (va : U64) : (decompose va).data.toNat = (stepOffsets va).dataOffset.toNat :=
  toNat_setWidth_and_ones (w := 12) (by decide) va

theorem toNat_decompose_ptd (va : U64) : (decompose va).ptd.toNat = (stepOffsets va).ptdOffset.toNat :=
  toNat_setWidth_and_ones (w := 9) (by decide) (va >>> 12)

theorem toNat_decompose_pmd (va : U64) : (decompose va).pmd.toNat = (stepOffsets va).pmdOffset.toNat :=
  toNat_setWidth_and_ones (w := 9) (by decide) (va >>> 12 >>> 9)

theorem toNat_decompose_pud (va : U64) : (decompose va).pud.toNat = (stepOffsets va).pudOffset.toNat :=
  toNat_setWidth_and_ones (w := 9) (by decide) (va >>> 12 >>> 9 >>> 9)

theorem toNat_decompose_pgd (va : U64) : (decompose va).pgd.toNat = (stepOffsets va).pgdOffset.toNat :=
  toNat_setWidth_and_ones (w := 9) (by decide) (va >>> 12 >>> 9 >>> 9 >>> 9)

theorem extractionOrder_decompose (va : U64) :
    (decompose va).extractionOrder =
      [ (stepOffsets va).dataOffset.toNat, (stepOffsets va).ptdOffset.toNat, (stepOffsets va).pmdOffset.toNat,
        (stepOffsets va).pudOffset.toNat, (stepOffsets va).pgdOffset.toNat ] := by
  rw [Result.extractionOrder, toNat_decompose_data, toNat_decompose_ptd, toNat_decompose_pmd, toNat_decompose_pud,
    toNat_decompose_pgd]

/-! ### The extractor -/

/-- Over the wired widths the extractor's shifts and masks are those of R55's steps. -/
theorem extractWidths_layout (va : U64) :
    extractWidths Config.layout.widths va =
      [ (stepOffsets va).dataOffset.toNat, (stepOffsets va).ptdOffset.toNat, (stepOffsets va).pmdOffset.toNat,
        (stepOffsets va).pudOffset.toNat, (stepOffsets va).pgdOffset.toNat ] := rfl

theorem wellFormed_layout_iff (l : PagingLayout) : l.wellFormed = true ↔ l = Config.layout := by
  rw [PagingLayout.wellFormed, decide_eq_true_iff]

theorem extractByLayout_of_wellFormed {l : PagingLayout} (h : l.wellFormed = true) (va : U64) :
    extractByLayout l va = some (extractWidths l.widths va) :=
  if_pos h

theorem extractByLayout_of_not_wellFormed {l : PagingLayout} (h : ¬ l.wellFormed = true) (va : U64) :
    extractByLayout l va = none :=
  if_neg h

/-- Settles O9: the wired layout is admitted, and there the masks and shifts are R55's and truncation loses nothing; no other
layout is admitted. -/
theorem layoutExtractorIsDecompose : Obligations.LayoutExtractorIsDecompose := by
  refine ⟨fun va => ?wired, fun l va hne => ?refused⟩
  case wired =>
    have hwf : Config.layout.wellFormed = true := (wellFormed_layout_iff _).mpr rfl
    rw [extractByLayout_of_wellFormed hwf, extractWidths_layout, extractionOrder_decompose]
  case refused =>
    exact extractByLayout_of_not_wellFormed (fun hwf => hne ((wellFormed_layout_iff l).mp hwf)) va

/-! ### The layout's constants -/

/-- What a layout consumes is the sum of the widths that the extractor shifts through (R10). -/
theorem consumed_eq_sum_widths (l : PagingLayout) : l.consumed = l.widths.sum := by
  rw [PagingLayout.consumed, PagingLayout.widths, List.sum_cons]

theorem widths_layout : Config.layout.widths = [12, 9, 9, 9, 9] := rfl

/-- Settles O10: the constants are the wired ones, and the widths add up to 48. -/
theorem layoutConsumesFortyEightBits : Obligations.LayoutConsumesFortyEightBits := by
  have hconsumed : Config.layout.consumed = 48 := by
    rw [consumed_eq_sum_widths, widths_layout]
    decide
  exact ⟨rfl, rfl, rfl, hconsumed⟩

end Sys2Proof.Machine
end

section
/-! PROOFS. What the ports promise and what the block's own move does (spec/10_state.md): reads, moves and steps first, then the
statements about one step. The one idea: at the block's turn a driven input is evaluated, whatever the rest of the state. -/

namespace Sys2Proof.Machine

/-! ### The ports -/

/-- Evaluated outputs may be read, and are the function of the input (R107). -/
theorem readOutputs_evaluate (va : U64) (s : State) : (s.evaluate va).readOutputs = some (decompose va) :=
  State.readOutputs_of_settled _ va rfl rfl

/-- The value on `va_i`, the settling interval and the outputs of two states agree. -/
def State.SamePorts (s t : State) : Prop :=
  t.vaI = s.vaI ∧ t.settleLeft = s.settleLeft ∧ t.out = s.out

/-- What the outputs follow is a matter of the ports alone (R16). -/
theorem State.OutputsFollow.of_samePorts {s t : State} (h : s.OutputsFollow) (hports : s.SamePorts t) : t.OutputsFollow := by
  obtain ⟨hva, hleft, hout⟩ := hports
  intro va hdriven hsettled
  rw [hout]
  exact h va (hva ▸ hdriven) (hleft ▸ hsettled)

theorem outputsFollow_of_undriven {s : State} (h : s.vaI = none) : s.OutputsFollow := by
  intro va hdriven _
  rw [h] at hdriven
  contradiction

theorem outputsFollow_of_unsettled {s : State} (h : s.settleLeft ≠ 0) : s.OutputsFollow :=
  fun _ _ hsettled => absurd hsettled h

theorem outputsFollow_evaluate (va : U64) (s : State) : (s.evaluate va).OutputsFollow := by
  intro w hdriven _
  obtain rfl : va = w := Option.some.inj hdriven
  rfl

/-- A new value shows its result at once only where there is no interval to wait for (R107). -/
theorem State.OutputsFollow.present {s : State} (h : s.OutputsFollow) (va : U64) : (s.present va).OutputsFollow := by
  by_cases hsame : s.vaI = some va
  · rwa [State.present_same va s hsame]
  · rw [State.present_new va s hsame]
    intro w hdriven hsettled
    obtain rfl : va = w := Option.some.inj hdriven
    exact if_pos hsettled

theorem settleLeft_present_le {s : State} (h : s.settleLeft ≤ Config.tSettle) (va : U64) :
    (s.present va).settleLeft ≤ Config.tSettle := by
  by_cases hsame : s.vaI = some va
  · rwa [State.present_same va s hsame]
  · rw [State.present_new va s hsame]

/-- What holding the input can do: nothing settles while it is not driven; a long hold evaluates; after a short one some of the
interval is left. -/
theorem hold_cases (d : Nat) (s : State) :
    (s.vaI = none ∧ s.hold d = s.showOpenValue) ∨
    (∃ va, s.hold d = s.evaluate va) ∨
    (d < s.settleLeft ∧ s.hold d = s.showOpenValue.passTime d) := by
  rcases hva : s.vaI with - | va
  · exact .inl ⟨rfl, State.hold_undriven d s hva⟩
  · rcases Nat.lt_or_ge d s.settleLeft with hshort | hlong
    · exact .inr (.inr ⟨hshort, State.hold_short d s va hva hshort⟩)
    · exact .inr (.inl ⟨va, State.hold_long d s va hva hlong⟩)

theorem outputsFollow_hold (d : Nat) (s : State) : (s.hold d).OutputsFollow := by
  rcases hold_cases d s with ⟨hva, heq⟩ | ⟨va, heq⟩ | ⟨hshort, heq⟩ <;> rw [heq]
  · exact outputsFollow_of_undriven hva
  · exact outputsFollow_evaluate va s
  · exact outputsFollow_of_unsettled (Nat.sub_ne_zero_of_lt hshort)

theorem settleLeft_hold_le (d : Nat) (s : State) : (s.hold d).settleLeft ≤ s.settleLeft := by
  rcases hold_cases d s with ⟨_, heq⟩ | ⟨va, heq⟩ | ⟨_, heq⟩ <;> rw [heq]
  · exact Nat.le_refl _
  · exact Nat.zero_le _
  · exact Nat.sub_le _ d

/-- Settles O26: each host action either keeps the ports, evaluates, or leaves the outputs unreadable. -/
theorem hostActionsKeepOutputsFollowing : Obligations.HostActionsKeepOutputsFollowing := by
  intro s va d hfollow hleft
  exact ⟨⟨hfollow.present va, settleLeft_present_le hleft va⟩,
    outputsFollow_hold d s, (settleLeft_hold_le d s).trans hleft⟩

/-! ### The block's move -/

theorem exec_decompose (va : U64) (s : State) : exec (.decompose va) s = .next (s.evaluate va) := rfl

theorem exec_next (i : Instr) (s : State) : ∃ t, exec i s = .next t := by
  cases i with
  | decompose va => exact ⟨_, exec_decompose va s⟩

/-- Settles O16: evaluation writes the ports' fields only. -/
theorem decomposeFrame : Obligations.DecomposeFrame := by
  intro va s
  have hadapter : s.SameAdapter (s.evaluate va) := ⟨rfl, rfl, rfl, rfl, rfl⟩
  exact ⟨s.evaluate va, exec_decompose va s, hadapter, rfl, rfl⟩

theorem blockStep_of_decode {s : State} {w : U64} {i : Instr} (hva : s.vaI = some w) (hdec : decode [w] = .ok i) :
    blockStep s = exec i s := by
  simp only [blockStep, hva, hdec]

theorem blockStepFor_of_next {s t : State} (a : Text) (h : blockStep s = .next t) :
    blockStepFor a s = .next (t.enter (.evaluated a)) := by
  simp only [blockStepFor, h]

/-! ### The steps in which the block moves -/

theorem step_of_blockTurn {s : State} (h : s.BlockTurn) : step s = blockStep s := by
  obtain ⟨hidle, hnone⟩ := h
  simp only [step, systemStep, hidle, hnone]

theorem step_of_presented {s : State} {a : Text} (h : s.phase = .presented a) : step s = blockStepFor a s := by
  simp only [step, systemStep, h]

theorem step_of_blockTurn_of_decode {s : State} {w : U64} {i : Instr} (hturn : s.BlockTurn) (hva : s.vaI = some w)
    (hdec : decode [w] = .ok i) : step s = exec i s :=
  (step_of_blockTurn hturn).trans (blockStep_of_decode hva hdec)

/-- Settles O17: both steps run the block's move, which is exec of the decoded word. -/
theorem stepRunsTheDecodedInstruction : Obligations.StepRunsTheDecodedInstruction := by
  intro s w i hva hdec
  refine ⟨fun hturn => step_of_blockTurn_of_decode hturn hva hdec, fun a hphase => ?_⟩
  obtain ⟨t, hexec⟩ := exec_next i s
  have hblock : blockStep s = .next t := (blockStep_of_decode hva hdec).trans hexec
  exact ⟨t, hexec, (step_of_presented hphase).trans (blockStepFor_of_next a hblock)⟩

/-- At its turn the block evaluates what is on `va_i` (R19). -/
theorem step_evaluates {s : State} {va : U64} (hturn : s.BlockTurn) (hva : s.vaI = some va) : step s = .next (s.evaluate va) :=
  step_of_blockTurn_of_decode hturn hva (decode_word va)

/-- Settles O20: each step evaluates `va`, and a read then sees `va`'s result alone. -/
theorem blockDependsOnInputAlone : Obligations.BlockDependsOnInputAlone := by
  intro s s' va hva hva' hturn hturn'
  exact ⟨s.evaluate va, s'.evaluate va, step_evaluates hturn hva, step_evaluates hturn' hva',
    readOutputs_evaluate va s, readOutputs_evaluate va s'⟩

theorem State.BlockTurn.present {s : State} (h : s.BlockTurn) (va : U64) : (s.present va).BlockTurn := by
  obtain ⟨hidle, hnone⟩ := h
  exact ⟨(State.present_phase va s).trans hidle, (State.present_pending va s).trans hnone⟩

/-- Settles O28: presenting keeps the block's turn and drives `va`, so the step evaluates `va`. -/
theorem presentedValueIsEvaluatedNext : Obligations.PresentedValueIsEvaluatedNext := by
  intro s va hturn
  exact ⟨_, step_evaluates (hturn.present va) (State.present_vaI va s), readOutputs_evaluate va _⟩

/-! ### A table row's word on the input port -/

theorem decode_of_decodeTableWord {nbits w : Nat} {i : Instr} (h : decodeTableWord nbits w = some i) :
    decode [tableWord nbits w] = .ok i := by
  unfold decodeTableWord at h
  split at h
  · rw [decode_word] at h ⊢
    exact congrArg Except.ok (Option.some.inj h)
  · contradiction

theorem withFetchWord_vaI (s : State) (nbits w : Nat) : (s.withFetchWord nbits w).vaI = some (tableWord nbits w) :=
  State.present_vaI (tableWord nbits w) s

theorem withFetchWord_blockTurn (s : State) (nbits w : Nat) : (s.withFetchWord nbits w).BlockTurn := ⟨rfl, rfl⟩

/-- Settles O18: with the word placed it is the block's turn, and `va_i` carries the word that decodes to `i`. -/
theorem placedWordRunsNext : Obligations.PlacedWordRunsNext := by
  intro s nbits w i hi
  exact step_of_blockTurn_of_decode (withFetchWord_blockTurn s nbits w) (withFetchWord_vaI s nbits w)
    (decode_of_decodeTableWord hi)

end Sys2Proof.Machine
end

section
/-! PROOFS. The invariant of the machine with its host adapter (spec/10_state.md): it holds at reset, and every move of the block
and of the adapter keeps it. Each operation that a step is made of has its own lemma; the step theorem puts them together along
`step_cases`. -/

namespace Sys2Proof.Machine

/-! ### The invocation relation, for each answer of the checks -/

theorem invoke_error {inv : Invocation} {e : HostError} (h : checkArguments inv = .error e) :
    invoke inv = { stdout := e.stdout, exitCode := e.exitCode } := by
  simp only [invoke, h]

theorem invoke_ok {inv : Invocation} {a : Text} {n : Nat} (h : checkArguments inv = .ok (a, n)) :
    invoke inv = { stdout := resultLine a (decompose (portWord n)), exitCode := 0 } := by
  simp only [invoke, h]

theorem checkArguments_of_hexValue {a : Text} {n : Nat} (p : Text) (more : List Text) (h : hexValue? a = some n) :
    checkArguments { programName := p, args := a :: more } = .ok (a, n) := by
  simp only [checkArguments, h]

theorem hexValue_of_checkArguments {inv : Invocation} {a : Text} {n : Nat} (h : checkArguments inv = .ok (a, n)) :
    hexValue? a = some n := by
  rcases checkArguments_cases inv with ⟨-, hc⟩ | ⟨t, -, -, -, hc⟩ | ⟨t, -, m, -, hval, hc⟩ <;> rw [h] at hc
  · contradiction
  · contradiction
  · cases hc
    exact hval

/-! ### The invariant with no invocation in progress -/

/-- With the adapter idle the invariant speaks of the ports and of the observations only. -/
theorem State.Inv.of_idle {s : State} (houtputs : s.OutputsFollow) (hinterval : s.settleLeft ≤ Config.tSettle)
    (hidle : s.phase = .idle) (hobserved : ∀ o ∈ s.finished, ∃ inv, o = invoke inv) : s.Inv where
  outputs := houtputs
  interval := hinterval
  presented := fun t hphase => by rw [hidle] at hphase; contradiction
  evaluated := fun t hphase => by rw [hidle] at hphase; contradiction
  observed := hobserved

/-- Settles O23: nothing is driven, in progress or observed at reset. -/
theorem invariantAtReset : Obligations.InvariantAtReset :=
  .of_idle (outputsFollow_of_undriven rfl) (Nat.zero_le _) rfl (by intro o ho; cases ho)

/-- Settles O24: reset's fields, and no read of an input that is not driven. -/
theorem resetLeavesNothingToRead : Obligations.ResetLeavesNothingToRead := by
  have hread : State.reset.readOutputs = none := State.readOutputs_of_undriven _ rfl
  exact ⟨rfl, hread, ⟨rfl, rfl⟩, rfl, rfl, rfl⟩

/-- An invocation that ends with the observation of the invocation relation, and leaves the ports alone, keeps the invariant. -/
theorem State.Inv.of_ended {s t : State} (hinv : s.Inv) (hports : s.SamePorts t) (hidle : t.phase = .idle) (inv : Invocation)
    (hfinished : t.finished = s.finished ++ [invoke inv]) : t.Inv := by
  refine .of_idle (hinv.outputs.of_samePorts hports) ?interval hidle ?observed
  case interval =>
    obtain ⟨-, hleft, -⟩ := hports
    exact hleft ▸ hinv.interval
  case observed =>
    intro o ho
    rw [hfinished, List.mem_append, List.mem_singleton] at ho
    rcases ho with hold | hnew
    · exact hinv.observed o hold
    · exact ⟨inv, hnew⟩

/-! ### The block's operations -/

theorem State.CarriesAddress.of_eq {s t : State} {a : Text} (h : s.CarriesAddress a) (hva : t.vaI = s.vaI)
    (hstdout : t.stdout = s.stdout) : t.CarriesAddress a := by
  obtain ⟨n, hval, hcarried, hempty⟩ := h
  exact ⟨n, hval, hva.trans hcarried, hstdout.trans hempty⟩

theorem State.CarriesAddress.driven {s : State} {a : Text} (h : s.CarriesAddress a) : s.vaI ≠ none := by
  obtain ⟨n, -, hcarried, -⟩ := h
  exact hcarried ▸ Option.some_ne_none _

/-- An open value on an input that is not driven is nothing that the invariant speaks of (U10). -/
theorem State.Inv.showOpenValue {s : State} (hinv : s.Inv) (hva : s.vaI = none) : s.showOpenValue.Inv where
  outputs := outputsFollow_of_undriven hva
  interval := hinv.interval
  presented := fun a hphase => (hinv.presented a hphase).of_eq rfl rfl
  evaluated := fun a hphase =>
    have ⟨hcarries, hsettled⟩ := hinv.evaluated a hphase
    ⟨hcarries.of_eq rfl rfl, hsettled⟩
  observed := hinv.observed

/-- Evaluating what is on `va_i` keeps the invariant in every phase (R19). -/
theorem State.Inv.evaluate {s : State} {va : U64} (hinv : s.Inv) (hva : s.vaI = some va) : (s.evaluate va).Inv where
  outputs := outputsFollow_evaluate va s
  interval := Nat.zero_le _
  presented := fun a hphase => (hinv.presented a hphase).of_eq hva.symm rfl
  evaluated := fun a hphase =>
    have ⟨hcarries, _⟩ := hinv.evaluated a hphase
    ⟨hcarries.of_eq hva.symm rfl, rfl⟩
  observed := hinv.observed

/-! ### The adapter's operations -/

theorem State.Inv.beginInvocation {s : State} (hinv : s.Inv) (hidle : s.phase = .idle) (rest : List Invocation) :
    (s.beginInvocation rest).Inv :=
  .of_idle (hinv.outputs.of_samePorts ⟨rfl, rfl, rfl⟩) hinv.interval hidle hinv.observed

theorem State.Inv.present {s : State} (hinv : s.Inv) (hidle : s.phase = .idle) (va : U64) : (s.present va).Inv := by
  refine .of_idle (hinv.outputs.present va) (settleLeft_present_le hinv.interval va)
    ((State.present_phase va s).trans hidle) ?_
  rw [State.present_finished]
  exact hinv.observed

/-- The adapter may go on to the presented phase once `va_i` carries the address (R79). -/
theorem State.Inv.enter_presented {s : State} {a : Text} (hinv : s.Inv) (hcarries : s.CarriesAddress a) :
    (s.enter (.presented a)).Inv where
  outputs := hinv.outputs.of_samePorts ⟨rfl, rfl, rfl⟩
  interval := hinv.interval
  presented := fun b hphase => by cases hphase; exact hcarries.of_eq rfl rfl
  evaluated := fun b hphase => by cases hphase
  observed := hinv.observed

/-- The adapter may go on to the reading phase once the presented address has settled (R70, R107). -/
theorem State.Inv.enter_evaluated {s : State} {a : Text} (hinv : s.Inv) (hcarries : s.CarriesAddress a)
    (hsettled : s.settleLeft = 0) : (s.enter (.evaluated a)).Inv where
  outputs := hinv.outputs.of_samePorts ⟨rfl, rfl, rfl⟩
  interval := hinv.interval
  presented := fun b hphase => by cases hphase
  evaluated := fun b hphase => by cases hphase; exact ⟨hcarries.of_eq rfl rfl, hsettled⟩
  observed := hinv.observed

/-! ### The adapter's moves -/

/-- A host error's effects are the invocation relation's (R88), and a parsed address is presented (R79). -/
theorem State.Inv.startInvocation {s : State} (hinv : s.Inv) (hidle : s.phase = .idle) (hstdout : s.stdout = [])
    (inv : Invocation) : (startInvocation inv s).Inv := by
  rcases hcheck : checkArguments inv with e | ⟨a, n⟩
  · rw [startInvocation_error inv e s hcheck]
    refine hinv.of_ended ⟨rfl, rfl, rfl⟩ rfl inv ?_
    rw [State.hostError_finished, hstdout, List.nil_append, invoke_error hcheck]
  · rw [startInvocation_ok inv a n s hcheck]
    have hcarries : (s.present (portWord n)).CarriesAddress a :=
      ⟨n, hexValue_of_checkArguments hcheck, State.present_vaI _ s, (State.present_stdout _ s).trans hstdout⟩
    exact (hinv.present hidle (portWord n)).enter_presented hcarries

/-- In the reading phase the outputs are settled on the address's value, so the line is the one of the invocation relation
(R80, R85). -/
theorem State.Inv.finishInvocation {s : State} {a : Text} (hinv : s.Inv) (hphase : s.phase = .evaluated a) :
    (finishInvocation a s).Inv := by
  obtain ⟨⟨n, hval, hcarried, hstdout⟩, hsettled⟩ := hinv.evaluated a hphase
  have hout : s.out = decompose (portWord n) := hinv.outputs _ hcarried hsettled
  refine hinv.of_ended ⟨rfl, rfl, rfl⟩ rfl { programName := [], args := [a] } ?_
  rw [Machine.finishInvocation, State.exitWith_finished, State.emit_finished, State.emit_stdout, hstdout, List.nil_append, hout,
    invoke_ok (checkArguments_of_hexValue [] [] hval)]

/-- Settles O25: along what a step can be, each move keeps the invariant; a presented address is never on an input that is not
driven. -/
theorem everyStepKeepsTheInvariant : Obligations.EveryStepKeepsTheInvariant := by
  intro s t hinv hstep
  obtain ⟨t', hstep', hmove⟩ := step_cases s
  obtain rfl : t' = t := Host.Outcome.next.inj (hstep'.symm.trans hstep)
  rcases hmove with ⟨-, -, hva, rfl⟩ | ⟨w, -, -, hva, rfl⟩ | ⟨inv, rest, hidle, -, rfl⟩ | ⟨a, hphase, hva, rfl⟩ |
    ⟨a, w, hphase, hva, rfl⟩ | ⟨a, hphase, rfl⟩
  · exact hinv.showOpenValue hva
  · exact hinv.evaluate hva
  · exact (hinv.beginInvocation hidle rest).startInvocation hidle rfl inv
  · exact absurd hva (hinv.presented a hphase).driven
  · have hevaluated : (s.evaluate w).Inv := hinv.evaluate hva
    exact hevaluated.enter_evaluated (hevaluated.presented a hphase) rfl
  · exact hinv.finishInvocation hphase

end Sys2Proof.Machine
end

section
/-! PROOFS. Evaluating again (R35), and the instances of a platform (R38, R99): what a platform step does is said once, as the
stepped instance's own place in the list and nothing else. -/

namespace Sys2Proof.Machine

/-! ### Evaluating again -/

/-- Evaluation reads nothing of the state, so only the last value counts (R16, R35). -/
theorem evaluate_evaluate (va w : U64) (s : State) : (s.evaluate va).evaluate w = s.evaluate w := rfl

theorem State.BlockTurn.evaluate {s : State} (h : s.BlockTurn) (va : U64) : (s.evaluate va).BlockTurn := h

/-- Settles O21: evaluation keeps the block's turn and the input, so the next step evaluates the same value again. -/
theorem evaluationIsIdempotent : Obligations.EvaluationIsIdempotent := by
  intro s va hva hturn
  have hagain : step (s.evaluate va) = .next ((s.evaluate va).evaluate va) :=
    step_evaluates (hturn.evaluate va) (State.evaluate_vaI va s)
  exact ⟨s.evaluate va, step_evaluates hturn hva, by rwa [evaluate_evaluate] at hagain⟩

/-! ### A platform's step -/

/-- Every step of the machine completes (R66, R87). -/
theorem step_next (s : State) : ∃ t, step s = .next t := by
  obtain ⟨t, hstep, -⟩ := step_cases s
  exact ⟨t, hstep⟩

theorem platformStep_zero {s t : State} (rest : List State) (h : step s = .next t) :
    platformStep (s :: rest) 0 = .next (t :: rest) := by
  simp only [platformStep, h]

theorem platformStep_succ {rest rest' : List State} {k : Nat} (s : State) (h : platformStep rest k = .next rest') :
    platformStep (s :: rest) (k + 1) = .next (s :: rest') := by
  simp only [platformStep, h]

/-- A number that names no instance moves none. -/
theorem platformStep_of_getElem?_eq_none {l : List State} {k : Nat} (hk : l[k]? = none) : platformStep l k = .next l := by
  induction l generalizing k with
  | nil => rfl
  | cons s rest ih =>
    cases k with
    | zero => contradiction
    | succ k => exact platformStep_succ s (ih hk)

/-- The step of instance `k` writes the `k`-th place of the platform alone. -/
theorem platformStep_of_getElem?_eq_some {l : List State} {k : Nat} {s t : State} (hk : l[k]? = some s)
    (hstep : step s = .next t) : platformStep l k = .next (l.set k t) := by
  induction l generalizing k with
  | nil => contradiction
  | cons s₀ rest ih =>
    cases k with
    | zero =>
      obtain rfl : s₀ = s := Option.some.inj hk
      exact platformStep_zero rest hstep
    | succ k => exact platformStep_succ s₀ (ih hk)

/-- Settles O46: either `k` names no instance and nothing moves, or the platform is the old one with the `k`-th place set. -/
theorem platformInstancesShareNothing : Obligations.PlatformInstancesShareNothing := by
  intro l k
  rcases hk : l[k]? with - | s
  · exact ⟨l, platformStep_of_getElem?_eq_none hk, rfl, fun _ _ => rfl, fun _ hs => by contradiction⟩
  · obtain ⟨t, hstep⟩ := step_next s
    obtain ⟨hlt, -⟩ := List.getElem?_eq_some_iff.mp hk
    refine ⟨l.set k t, platformStep_of_getElem?_eq_some hk hstep, List.length_set,
      fun j hj => List.getElem?_set_ne hj.symm, fun s' hs' => ?_⟩
    obtain rfl : s = s' := Option.some.inj hs'
    exact ⟨t, hstep, List.getElem?_set_self hlt⟩

end Sys2Proof.Machine
end

section
/-! PROOFS. The address text (spec/30_encoding.md R52, spec/41_host_cli.md R74, R75): what the parser reads of a byte, of a digit
sequence and of a text. The one idea: the `k` digits that the encoder writes of `n` are read back as `n` modulo `16^k`, so sixteen
digits carry the whole word; and what the parser reads as a number is made of hexadecimal digits, so the text is in the grammar. -/

namespace Sys2Proof

/-! ### One digit -/

/-- The parser gives a value to exactly the `hexdigit`s of the grammar. -/
theorem isSome_hexDigit?_iff (c : Byte) : (hexDigit? c).isSome = true ↔ IsHexDigit c := by
  simp only [hexDigit?, IsHexDigit, BitVec.le_def, BitVec.toNat_ofNat]
  split_ifs <;> simp <;> omega

theorem hexDigit?_hexDigitByte {d : Nat} (hd : d < 16) : hexDigit? (hexDigitByte d) = some d := by
  decide +revert

/-! ### A digit sequence -/

theorem hexAccumulate_cons {c : Byte} {d : Nat} (acc : Nat) (rest : Text) (hc : hexDigit? c = some d) :
    hexAccumulate acc (c :: rest) = hexAccumulate (16 * acc + d) rest := by
  simp only [hexAccumulate, hc]

theorem hexAccumulate_cons_of_none {c : Byte} (acc : Nat) (rest : Text) (hc : hexDigit? c = none) :
    hexAccumulate acc (c :: rest) = none := by
  simp only [hexAccumulate, hc]

/-- Reading a sequence goes on from the value of its first part. -/
theorem hexAccumulate_append {xs : Text} {acc m : Nat} (ys : Text) (hxs : hexAccumulate acc xs = some m) :
    hexAccumulate acc (xs ++ ys) = hexAccumulate m ys := by
  induction xs generalizing acc with
  | nil =>
    obtain rfl : acc = m := Option.some.inj hxs
    rfl
  | cons c rest ih =>
    rcases hc : hexDigit? c with - | d
    · rw [hexAccumulate_cons_of_none acc rest hc] at hxs
      contradiction
    · rw [hexAccumulate_cons acc rest hc] at hxs
      rw [List.cons_append, hexAccumulate_cons acc (rest ++ ys) hc, ih hxs]

theorem isHexDigit_of_hexAccumulate {s : Text} {acc n : Nat} (hs : hexAccumulate acc s = some n) : ∀ c ∈ s, IsHexDigit c := by
  induction s generalizing acc with
  | nil => exact List.forall_mem_nil _
  | cons c rest ih =>
    rcases hc : hexDigit? c with - | d
    · rw [hexAccumulate_cons_of_none acc rest hc] at hs
      contradiction
    · rw [hexAccumulate_cons acc rest hc] at hs
      exact List.forall_mem_cons.mpr ⟨(isSome_hexDigit?_iff c).mp (by rw [hc, Option.isSome_some]), ih hs⟩

/-- The `k` digits written of `n` are read back as what `k` digits can hold of it. -/
theorem hexAccumulate_hexDigits (k n : Nat) : hexAccumulate 0 (hexDigits k n) = some (n % 16 ^ k) := by
  induction k generalizing n with
  | zero => rw [hexDigits, hexAccumulate, Nat.pow_zero, Nat.mod_one]
  | succ k ih =>
    have hlast : hexDigit? (hexDigitByte (n % 16)) = some (n % 16) :=
      hexDigit?_hexDigitByte (Nat.mod_lt n (by decide))
    calc hexAccumulate 0 (hexDigits k (n / 16) ++ [hexDigitByte (n % 16)])
        = hexAccumulate (n / 16 % 16 ^ k) [hexDigitByte (n % 16)] := hexAccumulate_append _ (ih (n / 16))
      _ = some (16 * (n / 16 % 16 ^ k) + n % 16) := hexAccumulate_cons _ [] hlast
      _ = some (n % 16 ^ (k + 1)) := by rw [Nat.pow_succ', Nat.mod_mul, Nat.add_comm]

theorem hexDigits_succ_ne_nil (k n : Nat) : hexDigits (k + 1) n ≠ [] :=
  List.append_ne_nil_of_right_ne_nil _ (List.cons_ne_nil _ _)

/-! ### A text -/

/-- After the mark `0x`, what counts is the digit sequence, if there is one. -/
theorem hexValue?_zero_x {ds : Text} (hds : ds ≠ []) : hexValue? (ascii ['0', 'x'] ++ ds) = hexAccumulate 0 ds := by
  obtain ⟨c, rest, rfl⟩ := List.exists_cons_of_ne_nil hds
  rfl

theorem decodeText_of_hexValue? {s : Text} {n : Nat} (hs : hexValue? s = some n) :
    decodeText s = some (.decompose (portWord n)) := by
  simp only [decodeText, hs]

@[simp] theorem portWord_toNat (va : U64) : portWord va.toNat = va := by
  rw [portWord, BitVec.ofNat_toNat, BitVec.setWidth_eq]

/-- Sixteen hexadecimal digits hold a whole input word. -/
theorem hexAccumulate_hexDigits_toNat (va : U64) : hexAccumulate 0 (hexDigits 16 va.toNat) = some va.toNat := by
  have hfits : va.toNat < 16 ^ 16 := va.isLt
  rw [hexAccumulate_hexDigits, Nat.mod_eq_of_lt hfits]

theorem hexText_encodeText (i : Instr) : HexText (encodeText i) := by
  cases i with
  | decompose va =>
    exact ⟨ascii ['0', 'x'], hexDigits 16 va.toNat, rfl, .inr (.inl rfl), hexDigits_succ_ne_nil 15 _,
      isHexDigit_of_hexAccumulate (hexAccumulate_hexDigits_toNat va)⟩

theorem decodeText_encodeText (i : Instr) : decodeText (encodeText i) = some i := by
  cases i with
  | decompose va =>
    have hvalue : hexValue? (encodeText (.decompose va)) = some va.toNat :=
      (hexValue?_zero_x (hexDigits_succ_ne_nil 15 va.toNat)).trans (hexAccumulate_hexDigits_toNat va)
    rw [decodeText_of_hexValue? hvalue, portWord_toNat]

/-- Settles O5: sixteen digits after `0x` are in the grammar and are read back as the whole word. -/
theorem addressTextRoundTrip : Obligations.AddressTextRoundTrip :=
  fun i _ => ⟨hexText_encodeText i, decodeText_encodeText i⟩

end Sys2Proof
end

section
/-! PROOFS. The input word (spec/30_encoding.md): the decoder on each length of a word sequence, and the fields of format VA64.
The one idea for the fields: each port of DECOMPOSE is a bit field of the word, the very one that the format's table names, so
what reaches the ports follows from unpacking a packed word. -/

namespace Sys2Proof.Machine

/-! ### The decoder -/

theorem decode_nil : decode [] = .error .noWord := rfl

theorem decode_batch (v w : U64) (ws : List U64) : decode (v :: w :: ws) = .error .batch := rfl

/-- Settles O1: the row's mask and match are 0, so no word fails the test. -/
theorem everyWordDecodesAsDecompose : Obligations.EveryWordDecodesAsDecompose :=
  ⟨rfl, rfl, decode_word⟩

/-- Settles O2: along the length of the sequence, only one word is accepted, and it is the operand. -/
theorem decodeAcceptsExactlyEncodings : Obligations.DecodeAcceptsExactlyEncodings := by
  rintro ws ⟨va⟩
  match ws with
  | [] => simp [decode_nil, encode]
  | [w] => simp [decode_word, encode]
  | v :: w :: ws => simp [decode_batch, encode]

/-- Settles O3: each word written in binary is the stated address, and every word decodes. -/
theorem specWordsDecode : Obligations.SpecWordsDecode :=
  ⟨decode_word 0xFFFFFFFF81000000#64, decode_word 0xFFFF888000000000#64, decode_word 0x00007FFFFFFFFFFF#64,
    decode_word 0x0000000001FEE000#64⟩

/-! ### The fields of format VA64 -/

theorem toNat_append_eq_add {m n : Nat} (x : BitVec m) (y : BitVec n) : (x ++ y).toNat = x.toNat * 2 ^ n + y.toNat := by
  rw [BitVec.toNat_append, ← Nat.shiftLeft_add_eq_or_of_lt y.isLt, Nat.shiftLeft_eq]

theorem toNat_packVA64 (f : VA64) :
    (packVA64 f).toNat = f.ign.toNat * 2 ^ 48 + f.pgd.toNat * 2 ^ 39 + f.pud.toNat * 2 ^ 30
      + f.pmd.toNat * 2 ^ 21 + f.ptd.toNat * 2 ^ 12 + f.data.toNat := by
  simp only [packVA64, toNat_append_eq_add]
  omega

/-- A bit field is a quotient's remainder. -/
theorem toNat_extractLsb'_eq_div_mod (k n : Nat) (w : U64) : (w.extractLsb' k n).toNat = w.toNat / 2 ^ k % 2 ^ n := by
  rw [BitVec.extractLsb'_toNat, Nat.shiftRight_eq_div_pow]

/-- Every field below the cut is divided away, and every field above it is a multiple of the cut's width. -/
theorem unpackVA64_packVA64 (f : VA64) : unpackVA64 (packVA64 f) = f := by
  obtain ⟨ign, pgd, pud, pmd, ptd, data⟩ := f
  have hword := toNat_packVA64 ⟨ign, pgd, pud, pmd, ptd, data⟩
  dsimp only at hword
  rw [unpackVA64, VA64.mk.injEq]
  refine ⟨?_, ?_, ?_, ?_, ?_, ?_⟩ <;>
    (apply BitVec.eq_of_toNat_eq; rw [toNat_extractLsb'_eq_div_mod, hword]; omega)

/-- The fields are neighbours and cover the word. -/
theorem packVA64_unpackVA64 (w : U64) : packVA64 (unpackVA64 w) = w := by
  apply BitVec.eq_of_toNat_eq
  simp only [toNat_packVA64, unpackVA64, toNat_extractLsb'_eq_div_mod]
  omega

/-! ### The ports of DECOMPOSE -/

/-- Shifting by `k`, masking with `n` ones and truncating to `n` bits cuts out the field of `n` bits at `k`. -/
theorem setWidth_shift_and_ones (k : Nat) {n : Nat} (hn : n ≤ 64) (w : U64) :
    ((w >>> k) &&& BitVec.ofNat 64 (2 ^ n - 1)).setWidth n = w.extractLsb' k n := by
  apply BitVec.eq_of_toNat_eq
  rw [toNat_setWidth_and_ones hn, toNat_and_ones hn, BitVec.toNat_ushiftRight, BitVec.extractLsb'_toNat]

/-- Each port carries the bit field that the format's table names for it, and IGN reaches none (R44, R45). -/
theorem decompose_eq_unpackVA64 (w : U64) :
    decompose w =
      { pgd := (unpackVA64 w).pgd, pud := (unpackVA64 w).pud, pmd := (unpackVA64 w).pmd, ptd := (unpackVA64 w).ptd,
        data := (unpackVA64 w).data } := by
  have hfield (k : Nat) : ((w >>> k) &&& 0x1FF#64).setWidth 9 = w.extractLsb' k 9 :=
    setWidth_shift_and_ones k (n := 9) (by decide) w
  have hdata : (w &&& 0xFFF#64).setWidth 12 = w.extractLsb' 0 12 :=
    setWidth_shift_and_ones 0 (n := 12) (by decide) w
  simp only [decompose, stepOffsets, ← BitVec.shiftRight_add, hfield, hdata, unpackVA64]

/-- Settles O4: the fields' positions, packing and unpacking, and the ports as the unpacked fields. -/
theorem formatFieldsReachTheirPorts : Obligations.FormatFieldsReachTheirPorts := by
  refine ⟨toNat_packVA64, unpackVA64_packVA64, packVA64_unpackVA64, fun f s => ?ports⟩
  case ports =>
    refine ⟨s.evaluate (packVA64 f), exec_decompose (packVA64 f) s, ?_⟩
    rw [State.evaluate_out, decompose_eq_unpackVA64, unpackVA64_packVA64]

end Sys2Proof.Machine
end

section
/-! PROOFS. DECOMPOSE (spec/40_decompose.md): its closed forms, and the laws of its result. The one idea for the laws: the five
fields are the cuts of va[47:0] and put together they are va[47:0] again, so the result and the low 48 bits determine each other. -/

namespace Sys2Proof.Machine

/-! ### Completion -/

/-- Settles O19: each of the moves that a step can be answers a next state. -/
theorem stepAlwaysAnswersNext : Obligations.StepAlwaysAnswersNext :=
  step_next

/-- Settles O6: DECOMPOSE evaluates its operand, and what is evaluated may be read. -/
theorem decomposeCompletesOnEveryWord : Obligations.DecomposeCompletesOnEveryWord := by
  intro va s
  exact ⟨s.evaluate va, exec_decompose va s, State.evaluate_vaI va s, State.evaluate_settleLeft va s,
    State.evaluate_out va s, readOutputs_evaluate va s⟩

/-! ### The closed forms -/

/-- A bit field, widened to the word again, is the word shifted by `k` under a mask of `n` ones. -/
theorem setWidth_extractLsb'_eq_shift_and_ones (k : Nat) {n : Nat} (hn : n ≤ 64) (w : U64) :
    (w.extractLsb' k n).setWidth 64 = (w >>> k) &&& BitVec.ofNat 64 (2 ^ n - 1) := by
  apply BitVec.eq_of_toNat_eq
  rw [BitVec.toNat_setWidth_of_le hn, toNat_and_ones hn, BitVec.toNat_ushiftRight, BitVec.extractLsb'_toNat]

/-- An index field's port, widened again, is the word shifted under the mask `0x1FF` (R57 to R60). -/
theorem setWidth_indexField (k : Nat) (va : U64) :
    (va.extractLsb' k 9).setWidth 64 = (va >>> k) &&& 0x1FF#64 :=
  setWidth_extractLsb'_eq_shift_and_ones k (n := 9) (by decide) va

/-- The offset's port, widened again, is the word under the mask `0xFFF` (R56). -/
theorem setWidth_offsetField (va : U64) : (va.extractLsb' 0 12).setWidth 64 = va &&& 0xFFF#64 :=
  setWidth_extractLsb'_eq_shift_and_ones 0 (n := 12) (by decide) va

/-- Settles O7: each port is the bit field of its rule, a bit field is a shift under a mask, and the listed words are evaluated. -/
theorem outputPortsFollowClosedForms : Obligations.OutputPortsFollowClosedForms := by
  refine ⟨fun va s => ⟨s.evaluate va, exec_decompose va s, ?fields⟩, fun p hp s => ?cases⟩
  case fields =>
    rw [State.evaluate_out, decompose_eq_unpackVA64]
    exact ⟨rfl, setWidth_offsetField va, rfl, setWidth_indexField 12 va, rfl, setWidth_indexField 21 va,
      rfl, setWidth_indexField 30 va, rfl, setWidth_indexField 39 va⟩
  case cases =>
    refine ⟨s.evaluate p.1, exec_decompose p.1 s, ?_⟩
    rw [State.evaluate_out]
    revert p
    decide

/-! ### Exact arithmetic and ranges -/

/-- Settles O8: each port is a bit field, and a bit field is a quotient's remainder. -/
theorem stepSequenceIsDivisionAndRemainder : Obligations.StepSequenceIsDivisionAndRemainder := by
  intro va s
  have hpage : Config.pageSize = 2 ^ 12 := rfl
  have hentries : Config.entriesPerTable = 2 ^ 9 := rfl
  refine ⟨s.evaluate va, exec_decompose va s, ?_⟩
  simp only [State.evaluate_out, decompose_eq_unpackVA64, unpackVA64, Result.extractionOrder, toNat_extractLsb'_eq_div_mod,
    hpage, hentries, Nat.pow_zero, Nat.div_one]

/-- No value under a mask exceeds the mask. -/
theorem toNat_and_le_right (a m : U64) : (a &&& m).toNat ≤ m.toNat := by
  rw [BitVec.toNat_and]
  exact Nat.and_le_right

/-- Settles O11: each 64-bit value stands under its mask; the extractor takes out these values, and the ports carry them. -/
theorem resultFieldsStayInRange : Obligations.ResultFieldsStayInRange := by
  intro va
  refine ⟨?ranges, extractWidths_layout va, fun s => ⟨s.evaluate va, exec_decompose va s, ?ports⟩⟩
  case ranges => refine ⟨?_, ?_, ?_, ?_, ?_⟩ <;> exact toNat_and_le_right _ _
  case ports => rw [State.evaluate_out, extractionOrder_decompose, extractWidths_layout]

/-! ### The result and the low 48 bits -/

/-- The fields of DECOMPOSE are cut from va[47:0]: bits 63:48 reach none (R64). -/
theorem decompose_eq_ofBits (va : U64) : decompose va = Result.ofBits (va.extractLsb' 0 48) := by
  have hcut {k n : Nat} (h : k + n ≤ 48) : (va.extractLsb' 0 48).extractLsb' k n = va.extractLsb' k n := by
    rw [BitVec.extractLsb'_extractLsb'_of_le h]
  simp [decompose_eq_unpackVA64, unpackVA64, Result.ofBits, hcut]

/-- The five fields of 48 bits are neighbours and cover them. -/
theorem packed_ofBits (b : BitVec 48) : (Result.ofBits b).packed = b := by
  apply BitVec.eq_of_toNat_eq
  simp only [Result.packed, Result.ofBits, toNat_append_eq_add, BitVec.extractLsb'_toNat, Nat.shiftRight_eq_div_pow]
  omega

/-- The packed view of DECOMPOSE's result (R68). -/
theorem packed_decompose (va : U64) : (decompose va).packed = va.extractLsb' 0 48 := by
  rw [decompose_eq_ofBits, packed_ofBits]

/-- The sum of R63 is the packed view, read as a number. -/
theorem reconstruct_eq_toNat_packed (r : Result) : r.reconstruct = r.packed.toNat := by
  unfold Result.reconstruct Result.packed
  simp only [toNat_append_eq_add, Nat.shiftLeft_eq]
  omega

theorem toNat_lowBits (va : U64) : (va.extractLsb' 0 48).toNat = va.toNat % 2 ^ 48 := by
  rw [toNat_extractLsb'_eq_div_mod, Nat.pow_zero, Nat.div_one]

/-- Settles O15: the packed view of the outputs is va[47:0]. -/
theorem packedResultIsLowFortyEightBits : Obligations.PackedResultIsLowFortyEightBits := by
  intro va s
  refine ⟨s.evaluate va, exec_decompose va s, ?_⟩
  rw [State.evaluate_out]
  exact packed_decompose va

/-- What the result stands for is the address modulo `2^48`, whatever the address. -/
theorem reconstruct_decompose (va : U64) : (decompose va).reconstruct = va.toNat % 2 ^ 48 := by
  rw [reconstruct_eq_toNat_packed, packed_decompose, toNat_lowBits]

/-- Settles O12: the sum is the address modulo `2^48`, which is the address itself where it lies below `2^48`. -/
theorem resultReconstructsLowAddresses : Obligations.ResultReconstructsLowAddresses := by
  intro a s ha
  have hlow : a.toNat % 2 ^ 48 = a.toNat := Nat.mod_eq_of_lt (by omega)
  exact ⟨s.evaluate a, exec_decompose a s, (reconstruct_decompose a).trans hlow⟩

/-- The result and the low 48 bits determine each other (R64, R68). -/
theorem decompose_eq_iff_lowBits (a b : U64) : decompose a = decompose b ↔ a.extractLsb' 0 48 = b.extractLsb' 0 48 := by
  constructor
  · intro h
    rw [← packed_decompose, h, packed_decompose]
  · intro h
    rw [decompose_eq_ofBits, h, ← decompose_eq_ofBits]

theorem lowBits_ofNat_mod (a : U64) : (BitVec.ofNat 64 (a.toNat % 2 ^ 48)).extractLsb' 0 48 = a.extractLsb' 0 48 := by
  apply BitVec.eq_of_toNat_eq
  rw [toNat_lowBits, toNat_lowBits, BitVec.toNat_ofNat]
  omega

/-- Settles O13: words that agree on bits 47:0 have one result, and a word and its remainder by `2^48` are such words. -/
theorem highBitsAreDiscarded : Obligations.HighBitsAreDiscarded := by
  have hsame (a b : U64) (s s' : State) (h : a.extractLsb' 0 48 = b.extractLsb' 0 48) :
      ∃ t t', exec (.decompose a) s = .next t ∧ exec (.decompose b) s' = .next t' ∧ t.out = t'.out :=
    ⟨s.evaluate a, s'.evaluate b, exec_decompose a s, exec_decompose b s', (decompose_eq_iff_lowBits a b).mpr h⟩
  exact ⟨fun a s s' => hsame a _ s s' (lowBits_ofNat_mod a).symm, hsame⟩

/-- What DECOMPOSE leaves on the outputs is its function of the operand (R55). -/
theorem out_of_exec_decompose {va : U64} {s t : State} (h : exec (.decompose va) s = .next t) : t.out = decompose va := by
  obtain rfl : s.evaluate va = t := Host.Outcome.next.inj ((exec_decompose va s).symm.trans h)
  exact State.evaluate_out va s

/-- Settles O14: equal results have equal packed views, and these are the low 48 bits. -/
theorem resultDeterminesLowBits : Obligations.ResultDeterminesLowBits := by
  intro a b s s' t t' ha hb hout
  rw [out_of_exec_decompose ha, out_of_exec_decompose hb] at hout
  have hlow : a.extractLsb' 0 48 = b.extractLsb' 0 48 := (decompose_eq_iff_lowBits a b).mp hout
  rw [← toNat_lowBits, ← toNat_lowBits, hlow]

end Sys2Proof.Machine
end

section
/-! PROOFS. The grammar of the address text (spec/41_host_cli.md R74 to R78). The one idea: what stands after the radix mark is
exactly what the parser reads, digit by digit, as its positional value; so a text the parser refuses is outside the grammar, and
the listed malformed texts are refused. -/

namespace Sys2Proof

/-! ### The digits -/

theorem hexDigit?_of_isHexDigit {c : Byte} (hc : IsHexDigit c) : hexDigit? c = some (digitValue c) := by
  simp only [IsHexDigit, BitVec.le_def, BitVec.toNat_ofNat] at hc
  simp only [hexDigit?, digitValue, BitVec.le_def, BitVec.toNat_ofNat]
  rcases hc with hdecimal | hlower | hupper
  · rw [if_pos (by omega), if_pos (by omega)]
  · rw [if_neg (by omega), if_pos (by omega), if_neg (by omega), if_neg (by omega), Option.some.injEq]
    omega
  · rw [if_neg (by omega), if_neg (by omega), if_pos (by omega), if_neg (by omega), if_pos (by omega), Option.some.injEq]
    omega

/-- Digits read after a value `acc` push it up by their number and add their own value (R75). -/
theorem hexAccumulate_of_digits {ds : Text} (hds : ∀ c ∈ ds, IsHexDigit c) (acc : Nat) :
    hexAccumulate acc ds = some (acc * 16 ^ ds.length + positionalValue ds) := by
  induction ds generalizing acc with
  | nil => simp [hexAccumulate, positionalValue]
  | cons c rest ih =>
    obtain ⟨hc, hrest⟩ := List.forall_mem_cons.mp hds
    rw [hexAccumulate_cons acc rest (hexDigit?_of_isHexDigit hc), ih hrest, positionalValue, List.length_cons]
    congr 1
    ring

/-- Leading zeros weigh nothing (R75). -/
theorem positionalValue_zeros_append (k : Nat) (ds : Text) :
    positionalValue (List.replicate k 0x30#8 ++ ds) = positionalValue ds := by
  have hzero : digitValue 0x30#8 = 0 := rfl
  induction k with
  | zero => rfl
  | succ k ih => rw [List.replicate_succ, List.cons_append, positionalValue, hzero, Nat.zero_mul, Nat.zero_add, ih]

theorem isHexDigit_of_mem_zeros_append {k : Nat} {ds : Text} (hds : ∀ c ∈ ds, IsHexDigit c) :
    ∀ c ∈ List.replicate k 0x30#8 ++ ds, IsHexDigit c := by
  have hzero : IsHexDigit 0x30#8 := by unfold IsHexDigit; decide
  intro c hc
  rcases List.mem_append.mp hc with hzeros | hdigits
  · rwa [List.eq_of_mem_replicate hzeros]
  · exact hds c hdigits

/-! ### The radix mark -/

theorem not_isHexDigit_x : ¬ IsHexDigit 0x78#8 ∧ ¬ IsHexDigit 0x58#8 := by
  unfold IsHexDigit
  decide

theorem dropRadixMark_of_ne_mark {a b : Byte} {rest : Text} (h : ¬ (a = 0x30#8 ∧ (b = 0x78#8 ∨ b = 0x58#8))) :
    dropRadixMark (a :: b :: rest) = a :: b :: rest :=
  if_neg h

/-- No radix mark begins with two digits, so a bare digit sequence is kept whole. -/
theorem dropRadixMark_of_digits {ds : Text} (hds : ∀ c ∈ ds, IsHexDigit c) : dropRadixMark ds = ds := by
  match ds with
  | [] => rfl
  | [a] => rfl
  | a :: b :: rest =>
    have hb : IsHexDigit b := hds b (by simp)
    obtain ⟨hx, hX⟩ := not_isHexDigit_x
    refine dropRadixMark_of_ne_mark ?_
    rintro ⟨-, rfl | rfl⟩ <;> contradiction

theorem dropRadixMark_mark_append {p ds : Text} (hp : IsRadixMark p) (hds : ∀ c ∈ ds, IsHexDigit c) :
    dropRadixMark (p ++ ds) = ds := by
  rcases hp with rfl | rfl | rfl
  · exact dropRadixMark_of_digits hds
  · rfl
  · rfl

/-- What is dropped is a radix mark. -/
theorem exists_mark_append_dropRadixMark (s : Text) : ∃ p, IsRadixMark p ∧ s = p ++ dropRadixMark s := by
  match s with
  | [] => exact ⟨[], .inl rfl, rfl⟩
  | [a] => exact ⟨[], .inl rfl, rfl⟩
  | a :: b :: rest =>
    by_cases hmark : a = 0x30#8 ∧ (b = 0x78#8 ∨ b = 0x58#8)
    · obtain ⟨rfl, rfl | rfl⟩ := hmark
      · exact ⟨ascii ['0', 'x'], .inr (.inl rfl), rfl⟩
      · exact ⟨ascii ['0', 'X'], .inr (.inr rfl), rfl⟩
    · exact ⟨[], .inl rfl, (dropRadixMark_of_ne_mark hmark).symm⟩

/-! ### The text -/

/-- The parser accumulates what stands after the mark, if anything does. -/
theorem hexValue?_eq_some_iff {s : Text} {n : Nat} :
    hexValue? s = some n ↔ dropRadixMark s ≠ [] ∧ hexAccumulate 0 (dropRadixMark s) = some n := by
  rw [hexValue?]
  rcases dropRadixMark s with - | ⟨c, rest⟩ <;> simp

theorem hexValue?_mark_append {p ds : Text} (hp : IsRadixMark p) (hne : ds ≠ []) (hds : ∀ c ∈ ds, IsHexDigit c) :
    hexValue? (p ++ ds) = some (positionalValue ds) := by
  rw [hexValue?_eq_some_iff, dropRadixMark_mark_append hp hds]
  exact ⟨hne, by rw [hexAccumulate_of_digits hds, Nat.zero_mul, Nat.zero_add]⟩

theorem exists_hexValue?_iff (s : Text) : (∃ n, hexValue? s = some n) ↔ HexText s := by
  constructor
  · rintro ⟨n, hn⟩
    obtain ⟨hne, hread⟩ := hexValue?_eq_some_iff.mp hn
    obtain ⟨p, hp, hs⟩ := exists_mark_append_dropRadixMark s
    exact ⟨p, dropRadixMark s, hs, hp, hne, isHexDigit_of_hexAccumulate hread⟩
  · rintro ⟨p, ds, rfl, hp, hne, hds⟩
    exact ⟨positionalValue ds, hexValue?_mark_append hp hne hds⟩

theorem hexValue?_eq_none_iff (s : Text) : hexValue? s = none ↔ ¬ HexText s := by
  rw [← exists_hexValue?_iff, Option.eq_none_iff_forall_ne_some, not_exists]

/-- Settles O30: what the parser reads after the mark is a non-empty digit sequence, and every such sequence is read. -/
theorem parserAcceptsExactlyTheGrammar : Obligations.ParserAcceptsExactlyTheGrammar :=
  exists_hexValue?_iff

/-- Settles O31: the accumulated value is the positional one, with or without leading zeros; the examples are evaluated. -/
theorem textValueIsBaseSixteen : Obligations.TextValueIsBaseSixteen := by
  refine ⟨fun p ds k hp hne hds => ⟨hexValue?_mark_append hp hne hds, ?zeros⟩, by decide, by decide, by decide⟩
  case zeros =>
    rw [hexValue?_mark_append hp (List.append_ne_nil_of_right_ne_nil _ hne) (isHexDigit_of_mem_zeros_append hds),
      positionalValue_zeros_append]

/-- The bytes of a text in the grammar: digits, and the letter of the radix mark (R74). -/
theorem HexText.byte_cases {s : Text} (hs : HexText s) {c : Byte} (hc : c ∈ s) :
    IsHexDigit c ∨ c = 0x78#8 ∨ c = 0x58#8 := by
  obtain ⟨p, ds, rfl, hp, -, hds⟩ := hs
  have hmark : ∀ b ∈ p, IsHexDigit b ∨ b = 0x78#8 ∨ b = 0x58#8 := by
    unfold IsHexDigit
    rcases hp with rfl | rfl | rfl <;> decide
  rcases List.mem_append.mp hc with hcp | hcd
  · exact hmark c hcp
  · exact .inl (hds c hcd)

end Sys2Proof

namespace Sys2Proof.Machine

/-! ### Malformed texts -/

theorem checkArguments_of_hexValue_none {a : Text} (p : Text) (more : List Text) (h : hexValue? a = none) :
    checkArguments { programName := p, args := a :: more } = .error (.parseError a) := by
  simp only [checkArguments, h]

/-- A text that the parser refuses ends with ParseError (R88, R90). -/
theorem parseError_of_hexValue_none {a : Text} (p : Text) (more : List Text) (h : hexValue? a = none) :
    checkArguments { programName := p, args := a :: more } = .error (.parseError a) ∧
    invoke { programName := p, args := a :: more } = { stdout := [], exitCode := Config.parseErrorExit } := by
  have hcheck := checkArguments_of_hexValue_none p more h
  exact ⟨hcheck, invoke_error hcheck⟩

theorem parseError_of_not_hexText {a : Text} (p : Text) (more : List Text) (h : ¬ HexText a) :
    checkArguments { programName := p, args := a :: more } = .error (.parseError a) ∧
    invoke { programName := p, args := a :: more } = { stdout := [], exitCode := Config.parseErrorExit } :=
  parseError_of_hexValue_none p more ((hexValue?_eq_none_iff a).mpr h)

/-- Settles O32: outside the grammar the parser refuses; it refuses each stray `x`, and a foreign byte is none of the grammar's. -/
theorem foreignCharactersEndWithParseError : Obligations.ForeignCharactersEndWithParseError := by
  refine ⟨fun p _ more hs => parseError_of_not_hexText p more hs, fun t ht => ?stray, fun p s more c hc hdigit hx hX => ?foreign,
    ?listed⟩
  case stray =>
    rw [← hexValue?_eq_none_iff]
    revert t
    decide
  case foreign =>
    have hs : ¬ HexText s := fun hs => by
      rcases hs.byte_cases hc with h | h | h <;> contradiction
    obtain ⟨-, hinvoke⟩ := parseError_of_not_hexText p more hs
    exact hinvoke
  case listed =>
    unfold IsHexDigit
    decide

/-- Settles O33: no digit stands in any of the three texts, so the parser refuses them. -/
theorem emptyTextsEndWithParseError : Obligations.EmptyTextsEndWithParseError := by
  intro p more s hs
  have hnone : ∀ t ∈ [[], ascii ['0', 'x'], ascii ['0', 'X']], hexValue? t = none := by decide
  exact parseError_of_hexValue_none p more (hnone s hs)

/-! ### The invocation relation -/

theorem invoke_of_hexValue {a : Text} {n : Nat} (p : Text) (more : List Text) (h : hexValue? a = some n) :
    invoke { programName := p, args := a :: more } = { stdout := resultLine a (decompose (portWord n)), exitCode := 0 } :=
  invoke_ok (checkArguments_of_hexValue p more h)

theorem invoke_of_noArguments (p : Text) :
    invoke { programName := p, args := [] } = { stdout := usageMessage p, exitCode := 1 } := rfl

/-- Settles O40: for each answer of the parser, the observation speaks of the first argument alone. -/
theorem extraArgumentsAreIgnored : Obligations.ExtraArgumentsAreIgnored := by
  intro p q a more
  rcases h : hexValue? a with - | n
  · obtain ⟨-, hmore⟩ := parseError_of_hexValue_none p more h
    obtain ⟨-, hone⟩ := parseError_of_hexValue_none q [] h
    rw [hmore, hone]
  · rw [invoke_of_hexValue p more h, invoke_of_hexValue q [] h]

/-- Settles O41: along the checks of an invocation, no argument, a malformed text or a text with a value. -/
theorem exitCodeZeroMeansResultLine : Obligations.ExitCodeZeroMeansResultLine := by
  rintro ⟨p, - | ⟨a, more⟩⟩
  · rw [invoke_of_noArguments]
    simp
  · by_cases ha : HexText a
    · obtain ⟨n, hn⟩ := (exists_hexValue?_iff a).mpr ha
      rw [invoke_of_hexValue p more hn]
      simpa [ha] using ⟨portWord n, rfl⟩
    · obtain ⟨-, hinvoke⟩ := parseError_of_not_hexText p more ha
      rw [hinvoke]
      simp [ha, Config.parseErrorExit]

end Sys2Proof.Machine
end

section
/-! PROOFS. The output line (spec/41_host_cli.md R80, R81). The one idea for the numbers: `dec` writes the last digit after the
spelling of the quotient, so every fact about a spelling is an induction on quotients by ten. The one idea for the line: each
number is followed by a byte below `0`, so where its digits end can be read off the bytes, and the number with it. -/

namespace Sys2Proof.Machine

/-! ### Numbers -/

/-- The byte that spells one decimal digit (R81). -/
def decimalByte (d : Nat) : Byte := BitVec.ofNat 8 (48 + d)

theorem toNat_decimalByte {d : Nat} (hd : d < 10) : (decimalByte d).toNat = 48 + d := by
  rw [decimalByte, BitVec.toNat_ofNat]
  omega

/-- More fuel than the number has digits changes nothing. -/
theorem decimalDigits_eq_of_lt {v j k : Nat} (hj : v < j) (hk : v < k) : decimalDigits j v = decimalDigits k v := by
  induction j generalizing v k with
  | zero => contradiction
  | succ j ih =>
    cases k with
    | zero => contradiction
    | succ k =>
      rcases Nat.lt_or_ge v 10 with hone | hmore
      · rw [decimalDigits, decimalDigits, if_pos hone, if_pos hone]
      · rw [decimalDigits, decimalDigits, if_neg (by omega), if_neg (by omega),
          ih (v := v / 10) (k := k) (by omega) (by omega)]

theorem dec_of_lt {v : Nat} (hv : v < 10) : dec v = [decimalByte v] := by
  rw [dec, decimalDigits, if_pos hv]
  rfl

theorem dec_of_ge {v : Nat} (hv : 10 ≤ v) : dec v = dec (v / 10) ++ [decimalByte (v % 10)] := by
  rw [dec, decimalDigits, if_neg (by omega), List.map_append,
    decimalDigits_eq_of_lt (v := v / 10) (k := v / 10 + 1) (by omega) (by omega)]
  rfl

/-- What holds of the one-digit spellings, and of a spelling with one digit more, holds of every spelling. -/
theorem dec_induction {P : Nat → Text → Prop} (digit : ∀ v, v < 10 → P v [decimalByte v])
    (push : ∀ v, 10 ≤ v → P (v / 10) (dec (v / 10)) → P v (dec (v / 10) ++ [decimalByte (v % 10)])) (v : Nat) :
    P v (dec v) := by
  induction v using Nat.strong_induction_on with
  | h v ih =>
    rcases Nat.lt_or_ge v 10 with hone | hmore
    · rw [dec_of_lt hone]
      exact digit v hone
    · rw [dec_of_ge hmore]
      exact push v hmore (ih (v / 10) (by omega))

theorem decimalValue_append_decimalByte (t : Text) {d : Nat} (hd : d < 10) :
    decimalValue (t ++ [decimalByte d]) = 10 * decimalValue t + d := by
  simp only [decimalValue, List.foldl_append, List.foldl_cons, List.foldl_nil, toNat_decimalByte hd]
  omega

theorem decimalValue_dec (v : Nat) : decimalValue (dec v) = v := by
  refine dec_induction (P := fun v t => decimalValue t = v) (fun v hv => ?digit) (fun v _ ih => ?push) v
  case digit => exact (decimalValue_append_decimalByte [] hv).trans (Nat.zero_add v)
  case push =>
    rw [decimalValue_append_decimalByte _ (Nat.mod_lt v (by decide)), ih]
    omega

theorem dec_injective : Function.Injective dec :=
  Function.LeftInverse.injective decimalValue_dec

theorem decimalByte_mem_range {d : Nat} (hd : d < 10) : 0x30#8 ≤ decimalByte d ∧ decimalByte d ≤ 0x39#8 := by
  rw [BitVec.le_def, BitVec.le_def, toNat_decimalByte hd, BitVec.toNat_ofNat, BitVec.toNat_ofNat]
  omega

theorem dec_bytes (v : Nat) : ∀ c ∈ dec v, 0x30#8 ≤ c ∧ c ≤ 0x39#8 := by
  refine dec_induction (P := fun _ t => ∀ c ∈ t, 0x30#8 ≤ c ∧ c ≤ 0x39#8) (fun v hv => ?digit) (fun v _ ih => ?push) v
  case digit => simpa using decimalByte_mem_range hv
  case push =>
    intro c hc
    rcases List.mem_append.mp hc with hearlier | hlast
    · exact ih c hearlier
    · rw [List.mem_singleton.mp hlast]
      exact decimalByte_mem_range (Nat.mod_lt v (by decide))

theorem dec_ne_nil (v : Nat) : dec v ≠ [] :=
  dec_induction (P := fun _ t => t ≠ []) (fun _ _ => List.cons_ne_nil _ _)
    (fun _ _ _ => List.append_ne_nil_of_right_ne_nil _ (List.cons_ne_nil _ _)) v

/-- The first digit of a number is the first digit of its quotient by ten, and that is not zero where a digit is pushed. -/
theorem head?_dec_ne_zero {v : Nat} (hv : v ≠ 0) : (dec v).head? ≠ some 0x30#8 := by
  revert hv
  refine dec_induction (P := fun v t => v ≠ 0 → t.head? ≠ some 0x30#8) (fun v hv hne => ?digit)
    (fun v hv ih _ => ?push) v
  case digit =>
    have hbyte : (decimalByte v).toNat ≠ (0x30#8).toNat := by
      rw [toNat_decimalByte hv]
      simpa using hne
    rw [List.head?_cons]
    exact fun h => hbyte (congrArg BitVec.toNat (Option.some.inj h))
  case push =>
    rw [List.head?_append_of_ne_nil _ (dec_ne_nil _)]
    exact ih (by omega)

/-- Settles O35: by induction on quotients by ten, the spelling reads back, is made of digits and begins with none that is 0. -/
theorem decimalSpellingReadsBack : Obligations.DecimalSpellingReadsBack :=
  ⟨fun v => ⟨decimalValue_dec v, dec_bytes v, head?_dec_ne_zero⟩, dec_of_lt (by decide)⟩

/-! ### The line -/

/-- Where two numbers are each followed by the same separator, whose first byte lies below `0`, the digits end in one place. -/
theorem append_separator_inj {x y u v sep : Text} {c : Byte} (hx : ∀ b ∈ x, 0x30#8 ≤ b) (hy : ∀ b ∈ y, 0x30#8 ≤ b)
    (hc : c < 0x30#8) (h : x ++ (c :: sep ++ u) = y ++ (c :: sep ++ v)) : x = y ∧ u = v := by
  induction x generalizing y with
  | nil =>
    cases y with
    | nil => simpa using h
    | cons b y =>
      obtain ⟨rfl, -⟩ := List.cons.inj h
      exact absurd hc (BitVec.not_lt.mpr (hy _ List.mem_cons_self))
  | cons a x ih =>
    obtain ⟨ha, hx'⟩ := List.forall_mem_cons.mp hx
    cases y with
    | nil =>
      obtain ⟨rfl, -⟩ := List.cons.inj h
      exact absurd hc (BitVec.not_lt.mpr ha)
    | cons b y =>
      obtain ⟨rfl, htail⟩ := List.cons.inj h
      obtain ⟨rfl, huv⟩ := ih hx' (List.forall_mem_cons.mp hy).2 htail
      exact ⟨rfl, huv⟩

/-- A field's number and what follows its separator can be read off the line. -/
theorem field_inj {w : Nat} {m n : BitVec w} {c : Byte} {sep u v : Text} (hc : c < 0x30#8)
    (h : dec m.toNat ++ (c :: sep ++ u) = dec n.toNat ++ (c :: sep ++ v)) : m = n ∧ u = v := by
  have hdigits (k : Nat) : ∀ b ∈ dec k, 0x30#8 ≤ b := fun b hb => (dec_bytes k b hb).1
  obtain ⟨hnumber, htail⟩ := append_separator_inj (hdigits _) (hdigits _) hc h
  exact ⟨BitVec.eq_of_toNat_eq (dec_injective hnumber), htail⟩

/-- Settles O37: field by field, each number ends at its comma or at the line feed. -/
theorem outputLineLosesNothing : Obligations.OutputLineLosesNothing := by
  rintro a ⟨pgd, pud, pmd, ptd, data⟩ ⟨pgd', pud', pmd', ptd', data'⟩ h
  have hcomma : 0x2C#8 < 0x30#8 := by decide
  have hlineFeed : 0x0A#8 < 0x30#8 := by decide
  simp only [resultLine, List.append_assoc, List.append_cancel_left_eq] at h
  obtain ⟨rfl, hfromPud⟩ := field_inj hcomma h
  obtain ⟨rfl, hfromPmd⟩ := field_inj hcomma hfromPud
  obtain ⟨rfl, hfromPtd⟩ := field_inj hcomma hfromPmd
  obtain ⟨rfl, hfromData⟩ := field_inj hcomma hfromPtd
  obtain ⟨rfl, -⟩ := field_inj (sep := []) (u := []) (v := []) hlineFeed hfromData
  rfl

end Sys2Proof.Machine
end

section
/-! PROOFS. The stable-input requirement (spec/41_host_cli.md R70, spec/70_reset_and_hazards.md R107). The one idea: a hold takes
its duration off what is left of the interval, and what is left decides what may be read; so two holds are one hold of their sum. -/

namespace Sys2Proof.Machine

theorem readOutputs_present_new {s : State} {va : U64} (h : s.vaI ≠ some va) :
    (s.present va).readOutputs = if Config.tSettle = 0 then some (decompose va) else none := by
  rw [State.present_new va s h]
  split
  · next hzero => exact State.readOutputs_of_settled _ va rfl hzero
  · next hwait => exact State.readOutputs_of_unsettled _ hwait

theorem settleLeft_present_new {s : State} {va : U64} (h : s.vaI ≠ some va) : (s.present va).settleLeft = Config.tSettle := by
  rw [State.present_new va s h]

theorem readOutputs_hold_short {s : State} {va : U64} {d : Nat} (hva : s.vaI = some va) (hd : d < s.settleLeft) :
    (s.hold d).readOutputs = none := by
  rw [State.hold_short d s va hva hd]
  exact State.readOutputs_of_unsettled _ (Nat.sub_ne_zero_of_lt hd)

theorem readOutputs_hold_long {s : State} {va : U64} {d : Nat} (hva : s.vaI = some va) (hd : s.settleLeft ≤ d) :
    (s.hold d).readOutputs = some (decompose va) := by
  rw [State.hold_long d s va hva hd, readOutputs_evaluate]

theorem hold_vaI (d : Nat) (s : State) : (s.hold d).vaI = s.vaI := by
  rcases hva : s.vaI with - | va
  · rw [State.hold_undriven d s hva, State.showOpenValue_vaI, hva]
  · rcases Nat.lt_or_ge d s.settleLeft with hshort | hlong
    · rw [State.hold_short d s va hva hshort, State.passTime_vaI, State.showOpenValue_vaI, hva]
    · rw [State.hold_long d s va hva hlong, State.evaluate_vaI]

/-- A hold of a driven input takes its duration off what is left of the interval, down to nothing. -/
theorem settleLeft_hold {s : State} {va : U64} (d : Nat) (hva : s.vaI = some va) : (s.hold d).settleLeft = s.settleLeft - d := by
  rcases Nat.lt_or_ge d s.settleLeft with hshort | hlong
  · rw [State.hold_short d s va hva hshort, State.passTime_settleLeft, State.showOpenValue_settleLeft]
  · rw [State.hold_long d s va hva hlong, State.evaluate_settleLeft, Nat.sub_eq_zero_of_le hlong]

/-- What may be read after a hold depends on the interval and the input alone. -/
theorem readOutputs_hold {s : State} {va : U64} (d : Nat) (hva : s.vaI = some va) :
    (s.hold d).readOutputs = if s.settleLeft ≤ d then some (decompose va) else none := by
  split
  · next hlong => exact readOutputs_hold_long hva hlong
  · next hshort => exact readOutputs_hold_short hva (Nat.lt_of_not_le hshort)

/-- Settles O27: a new value starts the interval, the same value changes nothing, and holds take their durations off what is left. -/
theorem readsWaitForTheSettlingInterval : Obligations.ReadsWaitForTheSettlingInterval := by
  refine ⟨fun s va hnew => ⟨State.present_vaI va s, settleLeft_present_new hnew, readOutputs_present_new hnew⟩,
    fun s va hsame => State.present_same va s hsame, fun s va d hva => ⟨fun hshort => ?short, fun hlong => ?long⟩,
    fun s va d e hva => ?sum⟩
  case short => exact ⟨readOutputs_hold_short hva hshort, (hold_vaI d s).trans hva, settleLeft_hold d hva⟩
  case long => exact ⟨readOutputs_hold_long hva hlong, (hold_vaI d s).trans hva⟩
  case sum =>
    have hheld : (s.hold d).vaI = some va := (hold_vaI d s).trans hva
    rw [readOutputs_hold e hheld, readOutputs_hold (d + e) hva, settleLeft_hold e hheld, settleLeft_hold (d + e) hva,
      settleLeft_hold d hva]
    simp only [Nat.sub_le_iff_le_add', Nat.sub_sub, and_self]

end Sys2Proof.Machine
end

section
/-! PROOFS. The adapter's moves and the runs of whole invocations (spec/41_host_cli.md R79 to R85, spec/60_exceptions.md R90). The
one idea: how many steps an invocation takes, and what it adds to the observations, are functions of the invocation alone, so a
run over the queue is an induction on the queue that never looks at the ports. -/

namespace Sys2Proof.Machine

/-! ### The adapter's steps -/

theorem step_of_waiting {s : State} {inv : Invocation} {rest : List Invocation} (hidle : s.phase = .idle)
    (hpending : s.pending = inv :: rest) : step s = .next (startInvocation inv (s.beginInvocation rest)) := by
  simp only [step, systemStep, hidle, hpending]

theorem step_of_evaluated {s : State} {a : Text} (hphase : s.phase = .evaluated a) : step s = .next (finishInvocation a s) := by
  simp only [step, systemStep, hphase]

/-- An invocation that fails its checks ends in the step that takes it up (R91). -/
theorem step_of_failing {s : State} {inv : Invocation} {rest : List Invocation} {e : HostError} (hidle : s.phase = .idle)
    (hpending : s.pending = inv :: rest) (hcheck : checkArguments inv = .error e) :
    step s = .next ((s.beginInvocation rest).hostError e) := by
  rw [step_of_waiting hidle hpending, startInvocation_error inv e _ hcheck]

/-- An invocation that passes its checks has its value presented in the step that takes it up (R79). -/
theorem step_of_passing {s : State} {inv : Invocation} {rest : List Invocation} {a : Text} {n : Nat} (hidle : s.phase = .idle)
    (hpending : s.pending = inv :: rest) (hcheck : checkArguments inv = .ok (a, n)) :
    step s = .next (((s.beginInvocation rest).present (portWord n)).enter (.presented a)) := by
  rw [step_of_waiting hidle hpending, startInvocation_ok inv a n _ hcheck]

/-- A presented value is evaluated on the way to the reading phase (R85). -/
theorem step_of_presented_driven {s : State} {a : Text} {va : U64} (hphase : s.phase = .presented a) (hva : s.vaI = some va) :
    step s = .next ((s.evaluate va).enter (.evaluated a)) := by
  have hblock : blockStep s = .next (s.evaluate va) := blockStep_of_decode hva (decode_word va)
  rw [step_of_presented hphase, blockStepFor_of_next a hblock]

/-- Settles O29: of the moves that a step can be, only an invocation's start presents a value, and only when it parses. -/
theorem onlyAnInvocationChangesTheInput : Obligations.OnlyAnInvocationChangesTheInput := by
  intro s t hstep hchanged
  obtain ⟨t', hstep', hmove⟩ := step_cases s
  obtain rfl : t' = t := Host.Outcome.next.inj (hstep'.symm.trans hstep)
  rcases hmove with ⟨-, -, -, rfl⟩ | ⟨w, -, -, hva, rfl⟩ | ⟨inv, rest, hidle, hpending, rfl⟩ | ⟨a, -, -, rfl⟩ |
    ⟨a, w, -, hva, rfl⟩ | ⟨a, -, rfl⟩
  · exact absurd rfl hchanged
  · exact absurd hva.symm hchanged
  · rcases checkArguments_cases inv with ⟨-, hcheck⟩ | ⟨a, more, -, -, hcheck⟩ | ⟨a, more, n, hargs, hval, hcheck⟩
    · rw [startInvocation_error _ _ _ hcheck] at hchanged
      exact absurd rfl hchanged
    · rw [startInvocation_error _ _ _ hcheck] at hchanged
      exact absurd rfl hchanged
    · refine ⟨hidle, inv, rest, a, more, n, hpending, hargs, hval, ?_⟩
      rw [startInvocation_ok _ a n _ hcheck, State.enter_vaI, State.present_vaI]
  · exact absurd rfl hchanged
  · exact absurd hva.symm hchanged
  · exact absurd rfl hchanged

theorem toNat_portWord (n : Nat) : (portWord n).toNat = n % 2 ^ 64 :=
  BitVec.toNat_ofNat n 64

/-- The port's low 48 bits are the value's (R64, R79). -/
theorem lowBits_portWord (n : Nat) : ((portWord n).extractLsb' 0 48).toNat = n % 2 ^ 48 := by
  rw [toNat_lowBits, toNat_portWord]
  omega

/-- Settles O34: the step presents the value's remainder, and the result depends on the low 48 bits alone. -/
theorem parsedValueIsReducedToThePort : Obligations.ParsedValueIsReducedToThePort := by
  refine ⟨fun s p a more rest n hidle hpending hval => ?presented, fun n => ?reduced⟩
  case presented =>
    refine ⟨_, portWord n, step_of_passing hidle hpending (checkArguments_of_hexValue p more hval), ?_, toNat_portWord n, rfl, ?_⟩
    · rw [State.enter_vaI, State.present_vaI]
    · rw [State.enter_finished, State.present_finished, State.beginInvocation_finished]
  case reduced =>
    rw [decompose_eq_iff_lowBits]
    apply BitVec.eq_of_toNat_eq
    rw [lowBits_portWord, lowBits_portWord, Nat.mod_mod]

theorem diagnostic_names_badText (a : Text) : a <:+: diagnostic a :=
  ⟨Config.diagnosticLead a, Config.diagnosticTail a, rfl⟩

/-- Settles O39: the text fails the parse check, so the step is ParseError's effects on the freshly begun invocation. -/
theorem parseErrorEffects : Obligations.ParseErrorEffects := by
  refine ⟨Nat.succ_ne_zero _, fun s p a more rest hidle hpending ha => ?_⟩
  obtain ⟨hcheck, -⟩ := parseError_of_not_hexText p more ha
  exact ⟨_, step_of_failing hidle hpending hcheck, rfl, rfl, diagnostic_names_badText a, rfl, rfl, rfl, rfl, rfl⟩

/-- What the adapter is about to print, under the invariant: the outputs have settled on the address's value (R70, R80). -/
theorem State.Inv.printsResult {s : State} {a : Text} (hinv : s.Inv) (hphase : s.phase = .evaluated a) :
    ∃ n, hexValue? a = some n ∧ s.out = decompose (portWord n) ∧ s.stdout = [] := by
  obtain ⟨⟨n, hval, hcarried, hstdout⟩, hsettled⟩ := hinv.evaluated a hphase
  exact ⟨n, hval, hinv.outputs _ hcarried hsettled, hstdout⟩

theorem finishInvocation_finished {s : State} (a : Text) (hstdout : s.stdout = []) :
    (finishInvocation a s).finished = s.finished ++ [{ stdout := resultLine a s.out, exitCode := 0 }] := by
  rw [finishInvocation, State.exitWith_finished, State.emit_finished, State.emit_stdout, hstdout, List.nil_append]

theorem finishInvocation_stdout {s : State} (a : Text) (hstdout : s.stdout = []) :
    (finishInvocation a s).stdout = resultLine a s.out := by
  rw [finishInvocation, State.exitWith_stdout, State.emit_stdout, hstdout, List.nil_append]

/-- Settles O36: the step prints the line of what the ports show and exits; under the invariant that is the address's result. -/
theorem successWritesOneLineAndExitsZero : Obligations.SuccessWritesOneLineAndExitsZero := by
  refine ⟨fun s a hphase hstdout => ?shown, fun s a hinv hphase => ?result⟩
  case shown =>
    exact ⟨_, step_of_evaluated hphase, rfl, finishInvocation_finished a hstdout, rfl, rfl, rfl, rfl⟩
  case result =>
    obtain ⟨n, hval, hout, hstdout⟩ := hinv.printsResult hphase
    exact ⟨n, _, hval, step_of_evaluated hphase, hout ▸ finishInvocation_finished a hstdout⟩

/-- Settles O45: only a failing start and an end add an observation, and each writes all of it. -/
theorem noStepLeavesPartialOutput : Obligations.NoStepLeavesPartialOutput := by
  intro s t hinv hstep
  obtain ⟨t', hstep', hmove⟩ := step_cases s
  obtain rfl : t' = t := Host.Outcome.next.inj (hstep'.symm.trans hstep)
  rcases hmove with ⟨-, -, -, rfl⟩ | ⟨w, -, -, -, rfl⟩ | ⟨inv, rest, -, -, rfl⟩ | ⟨a, -, -, rfl⟩ | ⟨a, w, -, -, rfl⟩ |
    ⟨a, hphase, rfl⟩
  · exact .inl ⟨rfl, .inl rfl⟩
  · exact .inl ⟨rfl, .inl rfl⟩
  · rcases hcheck : checkArguments inv with e | ⟨a, n⟩
    · rw [startInvocation_error inv e _ hcheck]
      exact .inr ⟨inv, by rw [invoke_error hcheck]; exact ⟨rfl, rfl⟩⟩
    · rw [startInvocation_ok inv a n _ hcheck]
      exact .inl ⟨State.present_finished _ _, .inr (State.present_stdout _ _)⟩
  · exact .inl ⟨rfl, .inl rfl⟩
  · exact .inl ⟨rfl, .inl rfl⟩
  · obtain ⟨n, hval, hout, hstdout⟩ := hinv.printsResult hphase
    refine .inr ⟨{ programName := [], args := [a] }, ?_⟩
    rw [invoke_of_hexValue [] [] hval, finishInvocation_finished a hstdout, finishInvocation_stdout a hstdout, hout]
    exact ⟨rfl, rfl⟩

/-! ### Runs -/

theorem run_succ_of_step {s t : State} (k : Nat) (h : step s = .next t) : core.run (k + 1) s = core.run k t :=
  core_run_succ core k s t h

/-- A run goes on from where its first part ends, for any machine. -/
theorem core_run_add {M : Host.Core} {j : Nat} {s t : M.State} (k : Nat) (h : M.run j s = .next t) :
    M.run (j + k) s = M.run k t := by
  induction j generalizing s with
  | zero =>
    obtain rfl : s = t := Host.Outcome.next.inj h
    rw [Nat.zero_add]
  | succ j ih =>
    rw [Host.Core.run] at h
    split at h
    · next s' hstep => rw [Nat.succ_add, core_run_succ M _ s s' hstep, ih h]
    · contradiction
    · contradiction

/-- How many steps serve an invocation: one where a check fails, three where none does (log entry 5). -/
def serviceSteps (inv : Invocation) : Nat :=
  match checkArguments inv with
  | .error _ => 1
  | .ok _ => 3

theorem serviceSteps_error {inv : Invocation} {e : HostError} (h : checkArguments inv = .error e) : serviceSteps inv = 1 := by
  simp only [serviceSteps, h]

theorem serviceSteps_ok {inv : Invocation} {p : Text × Nat} (h : checkArguments inv = .ok p) : serviceSteps inv = 3 := by
  simp only [serviceSteps, h]

theorem serviceSteps_le (inv : Invocation) : serviceSteps inv ≤ 3 := by
  rcases hcheck : checkArguments inv with e | p
  · rw [serviceSteps_error hcheck]
    decide
  · rw [serviceSteps_ok hcheck]

/-- `t` is `s` with the first of its waiting invocations served: the rest waits, and one observation is added. -/
structure Served (inv : Invocation) (rest : List Invocation) (s t : State) : Prop where
  idle : t.phase = .idle
  pending : t.pending = rest
  finished : t.finished = s.finished ++ [invoke inv]
  stdout : t.stdout = (invoke inv).stdout

theorem served_hostError {inv : Invocation} {e : HostError} (rest : List Invocation) (s : State)
    (hcheck : checkArguments inv = .error e) : Served inv rest s ((s.beginInvocation rest).hostError e) where
  idle := rfl
  pending := rfl
  finished := by rw [invoke_error hcheck]; rfl
  stdout := by rw [invoke_error hcheck]; rfl

/-- The state in which the presented value has been evaluated and the adapter prints next. -/
def readyToPrint (a : Text) (n : Nat) (s : State) : State :=
  ((((s.present (portWord n)).enter (.presented a)).evaluate (portWord n)).enter (.evaluated a))

theorem served_finishInvocation {inv : Invocation} {a : Text} {n : Nat} (rest : List Invocation) (s : State)
    (hcheck : checkArguments inv = .ok (a, n)) :
    Served inv rest s (finishInvocation a (readyToPrint a n (s.beginInvocation rest))) := by
  have hstdout : (readyToPrint a n (s.beginInvocation rest)).stdout = [] := by simp [readyToPrint]
  constructor
  case idle => rfl
  case pending => simp [finishInvocation, readyToPrint]
  case finished =>
    rw [finishInvocation_finished a hstdout, invoke_ok hcheck]
    simp [readyToPrint]
  case stdout =>
    rw [finishInvocation_stdout a hstdout, invoke_ok hcheck]
    simp [readyToPrint]

/-- From any idle state the first waiting invocation is served, in a number of steps that depends on the invocation alone. -/
theorem run_serviceSteps {s : State} {inv : Invocation} {rest : List Invocation} (hidle : s.phase = .idle)
    (hpending : s.pending = inv :: rest) : ∃ t, core.run (serviceSteps inv) s = .next t ∧ Served inv rest s t := by
  rcases hcheck : checkArguments inv with e | ⟨a, n⟩
  · refine ⟨_, ?_, served_hostError rest s hcheck⟩
    rw [serviceSteps_error hcheck, run_succ_of_step 0 (step_of_failing hidle hpending hcheck)]
    rfl
  · refine ⟨_, ?_, served_finishInvocation rest s hcheck⟩
    have hdriven : (((s.beginInvocation rest).present (portWord n)).enter (.presented a)).vaI = some (portWord n) :=
      State.present_vaI _ _
    have hread : step (readyToPrint a n (s.beginInvocation rest)) =
        .next (finishInvocation a (readyToPrint a n (s.beginInvocation rest))) := step_of_evaluated rfl
    rw [serviceSteps_ok hcheck, run_succ_of_step 2 (step_of_passing hidle hpending hcheck),
      run_succ_of_step 1 (step_of_presented_driven rfl hdriven)]
    exact run_succ_of_step 0 hread

/-- Settles O42: the run that serves the invocation takes at most three steps. -/
theorem stepsRefineTheInvocationRelation : Obligations.StepsRefineTheInvocationRelation := by
  intro s inv rest hidle hpending
  obtain ⟨t, hrun, hserved⟩ := run_serviceSteps hidle hpending
  exact ⟨serviceSteps inv, t, serviceSteps_le inv, hrun, hserved.idle, hserved.pending, hserved.finished, hserved.stdout⟩

/-- How many steps serve a queue. -/
def queueSteps (q : List Invocation) : Nat := (q.map serviceSteps).sum

theorem queueSteps_cons (inv : Invocation) (rest : List Invocation) :
    queueSteps (inv :: rest) = serviceSteps inv + queueSteps rest := by
  rw [queueSteps, List.map_cons, List.sum_cons, queueSteps]

theorem queueSteps_le (q : List Invocation) : queueSteps q ≤ 3 * q.length := by
  induction q with
  | nil => exact Nat.le_refl 0
  | cons inv rest ih =>
    have hfirst := serviceSteps_le inv
    rw [queueSteps_cons, List.length_cons]
    omega

/-- From any idle state the whole queue is served in order, in a number of steps that depends on the queue alone. -/
theorem run_queueSteps (q : List Invocation) {s : State} (hidle : s.phase = .idle) (hpending : s.pending = q) :
    ∃ t, core.run (queueSteps q) s = .next t ∧ t.phase = .idle ∧ t.pending = [] ∧
      t.finished = s.finished ++ q.map invoke := by
  induction q generalizing s with
  | nil => exact ⟨s, rfl, hidle, hpending, (List.append_nil _).symm⟩
  | cons inv rest ih =>
    obtain ⟨u, hfirst, hserved⟩ := run_serviceSteps hidle hpending
    obtain ⟨t, hrest, htidle, htpending, htfinished⟩ := ih hserved.idle hserved.pending
    refine ⟨t, ?run, htidle, htpending, ?observed⟩
    case run => rw [queueSteps_cons, core_run_add _ hfirst, hrest]
    case observed => rw [htfinished, hserved.finished, List.append_assoc, List.singleton_append, List.map_cons]

/-- Settles O43: the run over the queue takes at most three steps for each invocation. -/
theorem everyQueueIsServedInOrder : Obligations.EveryQueueIsServedInOrder := by
  intro s hidle
  obtain ⟨t, hrun, htidle, hempty, hfinished⟩ := run_queueSteps s.pending hidle rfl
  exact ⟨queueSteps s.pending, t, queueSteps_le s.pending, hrun, htidle, hempty, hfinished⟩

/-- Settles O44: the number of steps and the observations added are functions of the queue, which the two states share. -/
theorem invocationsAreIndependentOfHistory : Obligations.InvocationsAreIndependentOfHistory := by
  intro s s' hidle hidle' hsame
  obtain ⟨t, hrun, -, hempty, hfinished⟩ := run_queueSteps s.pending hidle rfl
  obtain ⟨t', hrun', -, hempty', hfinished'⟩ := run_queueSteps s.pending hidle' hsame.symm
  exact ⟨queueSteps s.pending, t, t', s.pending.map invoke, hrun, hrun', hempty, hempty', List.length_map _, hfinished,
    hfinished'⟩

end Sys2Proof.Machine
end

section
/-! PROOFS. The effects of a host error (spec/60_exceptions.md R88 to R93), said once for both errors: the step that takes up a
failing invocation writes what the error writes, on streams that start empty, and leaves the ports alone. -/

namespace Sys2Proof.Machine

/-- The step that takes up a failing invocation, field by field: the error's effects, and a frame over the ports (R88, R92). -/
theorem step_effects_of_failing {s : State} {inv : Invocation} {rest : List Invocation} {e : HostError}
    (hidle : s.phase = .idle) (hpending : s.pending = inv :: rest) (hcheck : checkArguments inv = .error e) :
    ∃ t, step s = .next t ∧ t.phase = .idle ∧ t.pending = rest ∧ t.stderr = e.stderr ∧
      t.finished = s.finished ++ [{ stdout := e.stdout, exitCode := e.exitCode }] ∧
      t.vaI = s.vaI ∧ t.settleLeft = s.settleLeft ∧ t.out = s.out ∧ t.freeCount = s.freeCount := by
  refine ⟨_, step_of_failing hidle hpending hcheck, ?_⟩
  simp

theorem checkArguments_of_noArguments (p : Text) :
    checkArguments { programName := p, args := [] } = .error (.usageError p) := rfl

/-- Settles O38: without an argument the usage check fails, and UsageError writes the usage message and exits with 1. -/
theorem usageErrorEffects : Obligations.UsageErrorEffects := by
  intro s p rest hidle hpending
  exact step_effects_of_failing hidle hpending (checkArguments_of_noArguments p)

end Sys2Proof.Machine
end

section
/-! PROOFS. The block before its input is driven (spec/70_reset_and_hazards.md R103, R107): its step shows an open value, which
leaves `va_i` undriven and so makes nothing readable. -/

namespace Sys2Proof.Machine

/-- While `va_i` is not driven the block has nothing to evaluate (U10). -/
theorem blockStep_of_undriven {s : State} (hva : s.vaI = none) : blockStep s = .next s.showOpenValue := by
  simp only [blockStep, hva]

theorem step_of_blockTurn_of_undriven {s : State} (hturn : s.BlockTurn) (hva : s.vaI = none) :
    step s = .next s.showOpenValue :=
  (step_of_blockTurn hturn).trans (blockStep_of_undriven hva)

/-- An open value on the outputs is no concern of the adapter's (R16). -/
theorem sameAdapter_showOpenValue (s : State) : s.SameAdapter s.showOpenValue := ⟨rfl, rfl, rfl, rfl, rfl⟩

/-- Settles O22: the step shows an open value, so the input stays undriven, and an undriven input gives no result to read. -/
theorem undrivenInputGivesNoResult : Obligations.UndrivenInputGivesNoResult := by
  intro s hva hturn
  have hundriven : s.showOpenValue.vaI = none := (State.showOpenValue_vaI s).trans hva
  exact ⟨s.showOpenValue, step_of_blockTurn_of_undriven hturn hva, hundriven, State.readOutputs_of_undriven _ hundriven,
    State.showOpenValue_settleLeft s, sameAdapter_showOpenValue s⟩

end Sys2Proof.Machine
end
